-- ==== Sys2Proof/Word.lean ====
section
/-! DEFINITION. The words the part shifts on its serial ports (10, R166). -/

namespace Sys2Proof

/-- A byte of an exchange (R161). -/
abbrev Byte := BitVec 8

/-- A two-byte quantity of a frame, most significant byte first (R166). -/
abbrev Word16 := BitVec 16

end Sys2Proof
end

