-- ==== Sys2Proof/Config.lean ====
section
/-! DEFINITION. What is fixed for the part, and the one value the spec leaves open. -/

namespace Sys2Proof

/-- The `n`-th byte of reply data shifted out while the part is held in reset: R156 says that these
data "carry no meaning", so the value is free (log 3). -/
opaque Config.heldByte : Nat → Byte

/-- Microseconds of the part's own time base that pass at an idle step with no timer due (log 6).
DESIGN CHOICE: the finest unit in which the spec states an interval. -/
def Config.tick : Nat := 1

end Sys2Proof
end

