-- ==== Sys2Proof/Syntax.lean ====
section
/-! DEFINITION. The commands of the part: one constructor of `Instr` for each row of
spec/opcode_table.json, with the operands the row's rule gives. -/

namespace Sys2Proof

/-- A party, and the port it speaks to (00_scope.md section 1.2). -/
inductive Party where
  | A | B | C
deriving DecidableEq, Repr

/-- An arm: the west arm (party A) or the east arm (party B). -/
inductive Arm where
  | A | B
deriving DecidableEq, Repr

/-- The party that controls an arm. -/
def Arm.party : Arm → Party
  | .A => .A
  | .B => .B

/-- The other arm. -/
def Arm.other : Arm → Arm
  | .A => .B
  | .B => .A

/-- The arm a party controls; the cell station controls none. -/
def Party.arm : Party → Option Arm
  | .A => some .A
  | .B => some .B
  | .C => none

/-- A slot that may hold an ordinary claim, 0..3 (R59). -/
abbrev SlotNo := Fin 4

/-- What a party clocks into a port in one exchange: whole bytes, and the bits of a byte that was
not finished when the select line rose (R161, R165 check 1). -/
structure Frame where
  bytes : List Byte
  extra : List Bool
deriving DecidableEq, Repr

/-- A probe record of a report, exactly as received (R41, R166): the kind is the code of the frame
(1 TOOL, 2 ELBOW, any other value undefined). -/
structure Probe where
  kind : Byte
  x : Word16
  y : Word16
  vx : Word16
  vy : Word16
deriving DecidableEq, Repr

/-- A report: a report count 0..15 and its probe records (R41). -/
structure Report where
  count : BitVec 4
  probes : List Probe
deriving DecidableEq, Repr

/-- The commands. A request carries its port where several ports accept it, its tag, the report of an
Arm Port request, and the bytes of its command section as R167 lays them out. -/
inductive Instr where
  /-- R163: the select line rises on an exchange that began with no request in processing. -/
  | exchangeEnd (p : Party) (f : Frame)
  /-- R164: an exchange that began while the port's previous request was in processing. -/
  | overrun (p : Party) (f : Frame)
  | nop (p : Party) (tag : BitVec 4) (rep : Option Report)
  | ack (p : Party) (tag : BitVec 4) (rep : Option Report) (codes : List Byte)
  | readRow (p : Party) (tag : BitVec 4) (rep : Option Report) (row : Byte)
  | join (x : Arm) (tag : BitVec 4) (rep : Option Report) (epoch : Byte)
  | leave (x : Arm) (tag : BitVec 4) (rep : Option Report)
  | clearTrip (x : Arm) (tag : BitVec 4) (rep : Option Report)
  /-- R143: at the Cell Port the request names an arm, at an Arm Port it names none. -/
  | readTrip (p : Party) (tag : BitVec 4) (rep : Option Report) (arm : Option Byte)
  | claim (p : Party) (tag : BitVec 4) (rep : Option Report) (col0 col1 row0 row1 : Byte)
  | shift (p : Party) (tag : BitVec 4) (rep : Option Report) (source col0 col1 row0 row1 : Byte)
  | release (p : Party) (tag : BitVec 4) (rep : Option Report) (slot : Byte)
  | block (tag : BitVec 4) (col0 col1 row0 row1 : Byte)
  | unblock (tag : BitVec 4) (col0 col1 row0 row1 : Byte)
  | writeRow (tag : BitVec 4) (row start : Byte) (entries : List Byte)
  | setParam (tag : BitVec 4) (ident : Byte) (value : Word16)
  | getParam (tag : BitVec 4) (ident : Byte)
  | start (tag : BitVec 4)
  | stop (tag : BitVec 4)
  | halt (tag : BitVec 4)
  | clearHalt (tag : BitVec 4)
  | evict (tag : BitVec 4) (arm : Byte)
  | readClaims (tag : BitVec 4) (party : Byte)
  | readQueue (tag : BitVec 4)
  | readArm (tag : BitVec 4) (arm : Byte)
  /-- R50: the report-period timer of an arm expires. -/
  | reportPeriodExpiry (x : Arm)
  /-- R92: the wait age of the claim in this slot reaches WAIT_LIMIT. -/
  | waitLimitExpiry (p : Party) (k : SlotNo)
  /-- R93: the wait age of the claim in this slot reaches YIELD_PATIENCE. -/
  | yieldTime (p : Party) (k : SlotNo)
  /-- R153: HALT_N falls. -/
  | haltLineAssertion
  /-- R153: HALT_N rises. -/
  | haltLineRelease
  /-- R156: power-on, or RST_N falls. -/
  | reset
  /-- R156: RST_N rises with the supply valid, or power-on ends. -/
  | resetRelease
  /-- R165: the processing of a taken request that fails a frame check completes. -/
  | frameCheckRefusal (p : Party)
deriving DecidableEq, Repr

end Sys2Proof
end

