-- ==== Sys2Proof/WellFormed.lean ====
section
/-! DEFINITION. Which commands can arise at the part's ports: the operand ranges that the frame
layouts of R161, R166 and R167 put on each. -/

namespace Sys2Proof

/-- A clocked frame: the bits of an unfinished byte are fewer than 8 (R161). -/
def Frame.wf (f : Frame) : Bool := decide (f.extra.length < 8)

/-- A report that passes check 6 of R165: 0, 1 or 2 probe records (R41). -/
def Report.wf (r : Report) : Bool := decide (r.probes.length ≤ 2)

/-- The report a request may carry: none at the Cell Port (R165 check 6). -/
def reportAllowed (p : Party) (rep : Option Report) : Bool :=
  match p, rep with
  | _, none => true
  | .C, some _ => false
  | _, some r => r.wf

/-- The bytes a report section takes in a body: 1, 10 or 19 (R166). -/
def reportLength (rep : Option Report) : Nat :=
  match rep with
  | none => 0
  | some r => 1 + 9 * r.probes.length

/-- A command whose operands can arise. -/
def Instr.wf : Instr → Bool
  | .exchangeEnd _ f | .overrun _ f => f.wf
  | .nop p _ rep | .readRow p _ rep _ | .claim p _ rep _ _ _ _ | .shift p _ rep _ _ _ _ _
  | .release p _ rep _ => reportAllowed p rep
  | .ack p _ rep codes => reportAllowed p rep && decide (codes.length ≤ 16)
  | .readTrip p _ rep arm => reportAllowed p rep && (arm.isSome == (p == .C))
  | .join x _ rep _ | .leave x _ rep | .clearTrip x _ rep => reportAllowed x.party rep
  | .writeRow _ _ _ entries => decide (entries.length ≤ 58)
  | .block .. | .unblock .. | .setParam .. | .getParam .. | .start .. | .stop .. | .halt ..
  | .clearHalt .. | .evict .. | .readClaims .. | .readQueue .. | .readArm ..
  | .reportPeriodExpiry .. | .waitLimitExpiry .. | .yieldTime .. | .haltLineAssertion
  | .haltLineRelease | .reset | .resetRelease | .frameCheckRefusal .. => true

end Sys2Proof
end

