-- ==== Sys2Proof/Decode.lean ====
section
/-! DEFINITION. From the bits a party clocks to the command they spell, by the frame checks and
layouts of R165 to R167, and back. No row of spec/opcode_table.json gives bits, so
`decodeTableWord` answers none; the frames of chapter 10 are decoded here in full. -/

namespace Sys2Proof

/-- The refusals of the frame checks (R165). -/
inductive FrameRefusal where
  | badFrame | badCheck | badKind
deriving DecidableEq, Repr

/-- What the frame checks of R165 say of a taken request: the command it spells, or the refusal. -/
inductive FrameVerdict where
  | accepted (c : Instr)
  | refused (r : FrameRefusal)
deriving DecidableEq, Repr

/-- The fields of a request frame (R166). -/
structure Request where
  port : Party
  tag : BitVec 4
  rep : Option Report
  kind : Byte
  body : List Byte
deriving DecidableEq, Repr

/-- XOR of a list of bytes (R165 check 4). -/
def xorAll : List Byte → Byte
  | [] => 0
  | b :: bs => b ^^^ xorAll bs

/-- Two bytes, most significant first (R166). -/
def word16 (hi lo : Byte) : Word16 := hi ++ lo

/-- The high byte of a two-byte quantity. -/
def hiByte (w : Word16) : Byte := w.extractLsb' 8 8

/-- The low byte of a two-byte quantity. -/
def loByte (w : Word16) : Byte := w.extractLsb' 0 8

/-- The first `n` probe records of a report section, nine bytes each (R166). -/
def parseProbes : Nat → List Byte → List Probe
  | n + 1, k :: x1 :: x0 :: y1 :: y0 :: u1 :: u0 :: v1 :: v0 :: more =>
    ⟨k, word16 x1 x0, word16 y1 y0, word16 u1 u0, word16 v1 v0⟩ :: parseProbes n more
  | _, _ => []

/-- Check 6 of R165: the report section split from the body. `none` where a report stands at the
Cell Port, its probe count is above 2, or it is longer than the body. -/
def splitReport (p : Party) (tagByte : Byte) (body : List Byte) : Option (Option Report × List Byte) :=
  if tagByte.getLsbD 7 then
    match p, body with
    | .C, _ => none
    | _, [] => none
    | _, cb :: more =>
      let n := (cb.extractLsb' 0 4).toNat
      if 2 < n ∨ more.length < 9 * n then none
      else some (some ⟨cb.extractLsb' 4 4, parseProbes n more⟩, more.drop (9 * n))
  else some (none, body)

/-- The kind codes accepted at every port, at the Arm Ports alone, and at the Cell Port alone (R167). -/
def kindsOfAll : List Nat := [1, 2, 3, 19, 32, 33, 34]

/-- Kind codes accepted at the Arm Ports alone (R167). -/
def kindsOfArms : List Nat := [16, 17, 18]

/-- Kind codes accepted at the Cell Port alone (R167). -/
def kindsOfCell : List Nat := [48, 49, 50, 64, 65, 66, 67, 68, 69, 70, 80, 81, 82]

/-- Check 5 of R165: the kind is one accepted at this port. -/
def kindAccepted (p : Party) (kind : Byte) : Bool :=
  kindsOfAll.contains kind.toNat ||
    (if p = .C then kindsOfCell.contains kind.toNat else kindsOfArms.contains kind.toNat)

/-- A request that every port accepts, by its kind and command section (R167). -/
def commonCommand (p : Party) (kind : Nat) (tag : BitVec 4) (rep : Option Report) (body : List Byte) :
    Option Instr :=
  match kind, body with
  | 1, [] => some (.nop p tag rep)
  | 2, codes => if codes.length ≤ 16 then some (.ack p tag rep codes) else none
  | 3, [row] => some (.readRow p tag rep row)
  | 19, [] => if p = .C then none else some (.readTrip p tag rep none)
  | 19, [arm] => if p = .C then some (.readTrip p tag rep (some arm)) else none
  | 32, [c0, c1, r0, r1] => some (.claim p tag rep c0 c1 r0 r1)
  | 33, [s, c0, c1, r0, r1] => some (.shift p tag rep s c0 c1 r0 r1)
  | 34, [slot] => some (.release p tag rep slot)
  | _, _ => none

/-- A request of the Arm Ports alone (R167). -/
def armCommand (x : Arm) (kind : Nat) (tag : BitVec 4) (rep : Option Report) (body : List Byte) :
    Option Instr :=
  match kind, body with
  | 16, [epoch] => some (.join x tag rep epoch)
  | 17, [] => some (.leave x tag rep)
  | 18, [] => some (.clearTrip x tag rep)
  | _, _ => none

/-- A request of the Cell Port alone (R167). -/
def cellCommand (kind : Nat) (tag : BitVec 4) (body : List Byte) : Option Instr :=
  match kind, body with
  | 48, [c0, c1, r0, r1] => some (.block tag c0 c1 r0 r1)
  | 49, [c0, c1, r0, r1] => some (.unblock tag c0 c1 r0 r1)
  | 50, row :: start :: entries => some (.writeRow tag row start entries)
  | 64, [ident, v1, v0] => some (.setParam tag ident (word16 v1 v0))
  | 65, [ident] => some (.getParam tag ident)
  | 66, [] => some (.start tag)
  | 67, [] => some (.stop tag)
  | 68, [] => some (.halt tag)
  | 69, [] => some (.clearHalt tag)
  | 70, [arm] => some (.evict tag arm)
  | 80, [party] => some (.readClaims tag party)
  | 81, [] => some (.readQueue tag)
  | 82, [arm] => some (.readArm tag arm)
  | _, _ => none

/-- Check 7 of R165: the command a kind and its command section spell at a port; `none` where the
section's length is not one the kind allows. -/
def commandOf (p : Party) (kind : Byte) (tag : BitVec 4) (rep : Option Report) (body : List Byte) :
    Option Instr :=
  if kindsOfAll.contains kind.toNat then commonCommand p kind.toNat tag rep body
  else
    match p.arm with
    | some x => armCommand x kind.toNat tag rep body
    | none => cellCommand kind.toNat tag body

/-- The seven frame checks of R165, in their order, on a taken request. -/
def decodeFrame (p : Party) (f : Frame) : FrameVerdict :=
  if f.extra ≠ [] then .refused .badFrame
  else
    match f.bytes with
    | kind :: tagByte :: len :: rest =>
      if rest = [] then .refused .badFrame
      else if 60 < len.toNat ∨ rest.length < len.toNat + 1 then .refused .badFrame
      else if xorAll (f.bytes.take (len.toNat + 4)) ≠ 0 then .refused .badCheck
      else if kindAccepted p kind = false then .refused .badKind
      else
        match splitReport p tagByte (rest.take len.toNat) with
        | none => .refused .badFrame
        | some (rep, body) =>
          match commandOf p kind (tagByte.extractLsb' 0 4) rep body with
          | none => .refused .badFrame
          | some c => .accepted c
    | _ => .refused .badFrame

/-- The kind byte as received, 0 where it was not (R165). -/
def Frame.kindByte (f : Frame) : Byte := f.bytes.getD 0 0

/-- The low four bits of the tag byte as received, 0 where it was not (R165). -/
def Frame.tag (f : Frame) : BitVec 4 := (f.bytes.getD 1 0).extractLsb' 0 4

/-- The request a command is the processing of; none for the commands that are not requests. -/
def Instr.request : Instr → Option Request
  | .nop p t rep => some ⟨p, t, rep, 1, []⟩
  | .ack p t rep codes => some ⟨p, t, rep, 2, codes⟩
  | .readRow p t rep row => some ⟨p, t, rep, 3, [row]⟩
  | .join x t rep epoch => some ⟨x.party, t, rep, 16, [epoch]⟩
  | .leave x t rep => some ⟨x.party, t, rep, 17, []⟩
  | .clearTrip x t rep => some ⟨x.party, t, rep, 18, []⟩
  | .readTrip p t rep arm => some ⟨p, t, rep, 19, arm.toList⟩
  | .claim p t rep c0 c1 r0 r1 => some ⟨p, t, rep, 32, [c0, c1, r0, r1]⟩
  | .shift p t rep src c0 c1 r0 r1 => some ⟨p, t, rep, 33, [src, c0, c1, r0, r1]⟩
  | .release p t rep slot => some ⟨p, t, rep, 34, [slot]⟩
  | .block t c0 c1 r0 r1 => some ⟨.C, t, none, 48, [c0, c1, r0, r1]⟩
  | .unblock t c0 c1 r0 r1 => some ⟨.C, t, none, 49, [c0, c1, r0, r1]⟩
  | .writeRow t row col entries => some ⟨.C, t, none, 50, row :: col :: entries⟩
  | .setParam t ident v => some ⟨.C, t, none, 64, [ident, hiByte v, loByte v]⟩
  | .getParam t ident => some ⟨.C, t, none, 65, [ident]⟩
  | .start t => some ⟨.C, t, none, 66, []⟩
  | .stop t => some ⟨.C, t, none, 67, []⟩
  | .halt t => some ⟨.C, t, none, 68, []⟩
  | .clearHalt t => some ⟨.C, t, none, 69, []⟩
  | .evict t arm => some ⟨.C, t, none, 70, [arm]⟩
  | .readClaims t party => some ⟨.C, t, none, 80, [party]⟩
  | .readQueue t => some ⟨.C, t, none, 81, []⟩
  | .readArm t arm => some ⟨.C, t, none, 82, [arm]⟩
  | .exchangeEnd .. | .overrun .. | .reportPeriodExpiry .. | .waitLimitExpiry .. | .yieldTime ..
  | .haltLineAssertion | .haltLineRelease | .reset | .resetRelease | .frameCheckRefusal .. => none

/-- The nine bytes of a probe record (R166). -/
def Probe.bytes (q : Probe) : List Byte :=
  [q.kind, hiByte q.x, loByte q.x, hiByte q.y, loByte q.y, hiByte q.vx, loByte q.vx, hiByte q.vy, loByte q.vy]

/-- A report section: the count byte, then the probe records (R166). -/
def Report.bytes (r : Report) : List Byte :=
  (r.count ++ BitVec.ofNat 4 r.probes.length : Byte) :: r.probes.flatMap Probe.bytes

/-- The tag byte of a request frame: the report-present flag in the top bit, the tag in the low four (R166). -/
def Request.tagByte (q : Request) : Byte :=
  (if q.rep.isSome then (0x8 : BitVec 4) else 0) ++ q.tag

/-- The body of a request frame: the report section, then the command section (R166). -/
def Request.bodyBytes (q : Request) : List Byte :=
  (match q.rep with
    | none => []
    | some r => r.bytes) ++ q.body

/-- The request frame of R166 with its check byte. -/
def Request.frame (q : Request) : Frame :=
  let head := q.kind :: q.tagByte :: BitVec.ofNat 8 q.bodyBytes.length :: q.bodyBytes
  ⟨head ++ [xorAll head], []⟩

/-- The frame that a party clocks to ask for a request; none for the commands that are not requests. -/
def encodeFrame (c : Instr) : Option Frame := c.request.map Request.frame

/-- No row of spec/opcode_table.json gives bits, so no table word spells a command. -/
def decodeTableWord (_nbits _w : Nat) : Option Instr := none

end Sys2Proof
end

