-- ==== Sys2Proof/Machine/State.lean ====
section
/-! DEFINITION. Everything the spec gives the part to hold, as plain data, and its values after
reset. Each type cites the rule that names its fields. -/

namespace Sys2Proof.Machine

open Sys2Proof

/-! ### The Tile Map (chapter 1) -/

/-- Service state of a tile (R5). -/
inductive Service where
  | opened | blocked | closing
deriving DecidableEq, Repr

/-- A position of the tile storage: column 0..15, row 0..7 (R1). -/
structure Tile where
  col : Fin 16
  row : Fin 8
deriving DecidableEq, Repr

/-- A tile record (R5). The owner is `none` for NONE. -/
structure TileRecord where
  service : Service
  speedClass : Fin 4
  owner : Option Party
  hold : Nat
deriving DecidableEq, Repr

/-- A record after reset: OPEN, class 0, owner NONE, hold count 0 (R5). -/
def TileRecord.initial : TileRecord := ⟨.opened, 0, none, 0⟩

/-- Storage for 128 tile records in scan order, row 0 first and in a row column 0 first (R1,
00_scope.md section 5.2). -/
structure TileMap where
  recs : List TileRecord
  complete : recs.length = 128
deriving DecidableEq, Repr

/-! ### The claim table (chapter 4) -/

/-- A normalized rectangle of tiles, both ends included (R60). -/
structure Rect where
  col0 : Nat
  col1 : Nat
  row0 : Nat
  row1 : Nat
deriving DecidableEq, Repr

/-- What a claim carries while it waits: its arrival number (R81), its wait age, kept here in
microseconds (R91), and its yield-asked flag (R93). -/
structure Waiting where
  arrival : Nat
  age : Nat
  asked : Bool
deriving DecidableEq, Repr

/-- An ordinary claim slot (R60): each state carries the fields that R60 gives it. -/
inductive Claim where
  | empty
  | pending (rect : Rect) (wait : Waiting) (link : Option SlotNo)
  | held (rect : Rect) (link : Option SlotNo)
  | draining (rect : Rect) (link : SlotNo)
deriving DecidableEq, Repr

/-- The state of a slot as replies give it (R60, R166). -/
inductive SlotState where
  | empty | pending | held | draining
deriving DecidableEq, Repr

/-- The four ordinary slots of a party (R59). -/
structure Slots where
  s0 : Claim
  s1 : Claim
  s2 : Claim
  s3 : Claim
deriving DecidableEq, Repr

/-- The claim table (R59): four ordinary slots of each party, and slot 4 of each arm as the tile set
of its trip claim, in scan order (R77). A trip claim never has an empty tile set, so no tile means
EMPTY. -/
structure ClaimTable where
  a : Slots
  b : Slots
  c : Slots
  tripA : List Tile
  tripB : List Tile
deriving DecidableEq, Repr

/-- The name of an ordinary claim: party and slot (R59). An entry of the claim queue (R80). -/
structure ClaimName where
  party : Party
  slot : SlotNo
deriving DecidableEq, Repr

/-! ### Evaluations (chapter 2) -/

/-- Breach causes of an evaluation and the trip causes added to them, in the order of their codes
(R35, R141, R166). -/
inductive Cause where
  | overspeed | farSide | foreign | blocked | unclaimed | zoneSpeed
  | stale | halt | foreignContact | farContact
deriving DecidableEq, Repr

/-- The guarded probes (R21). -/
inductive ProbeKind where
  | tool | elbow
deriving DecidableEq, Repr

/-- A set of parties, such as the foreign owners of R32 or a waits-on set of R83. -/
structure PartySet where
  a : Bool
  b : Bool
  c : Bool
deriving DecidableEq, Repr

/-- The envelope fields of a probe entry (R37): the interval of each axis, the column range or no
column, the row range, and the excursion flags. -/
structure Envelope where
  xLo : Int
  xHi : Int
  yLo : Int
  yHi : Int
  cols : Option (Nat × Nat)
  rows : Nat × Nat
  west : Bool
  east : Bool
deriving DecidableEq, Repr

/-- The result of a probe (R35). -/
inductive ProbeResult where
  | clear
  | breach (c : Cause)
  | notTested
deriving DecidableEq, Repr

/-- A probe entry of the evaluation record (R37). -/
structure ProbeEntry where
  speed : Nat
  result : ProbeResult
  tile : Option Tile
  envelope : Option Envelope
deriving DecidableEq, Repr

/-- The evaluation record while it is present (R37). `result` is `none` for CLEAR. -/
structure Evaluation where
  count : BitVec 4
  missed : Nat
  result : Option Cause
  kind : Option ProbeKind
  tile : Option Tile
  foreign : PartySet
  retained : Bool
  tool : ProbeEntry
  elbow : Option ProbeEntry
deriving DecidableEq, Repr

/-! ### Report Monitors (chapter 3) and Guard Controllers (chapters 7 and 8) -/

/-- The state of a Report Monitor (R42). The timer holds the microseconds left, `none` when stopped. -/
structure Monitor where
  lastReport : Option Report
  lastCount : Option (BitVec 4)
  missed : Nat
  timer : Option Nat
deriving DecidableEq, Repr

/-- The guard states of an arm (R117). -/
inductive GuardState where
  | offline | arming | live | tripped
deriving DecidableEq, Repr

/-- The envelope rectangle of a trip record (R141). -/
structure EnvelopeRect where
  xLo : Int
  xHi : Int
  yLo : Int
  yHi : Int
deriving DecidableEq, Repr

/-- The fields of a valid trip record (R141). -/
structure TripRecord where
  cleared : Bool
  cause : Cause
  kind : Option ProbeKind
  tile : Option Tile
  rect : Option EnvelopeRect
  count : Option (BitVec 4)
  missed : Nat
  speed : Option Nat
  contested : Bool
  secondBreach : Bool
  tileCount : Nat
deriving DecidableEq, Repr

/-- The state of a Guard Controller (R117). `trip` is `none` while the trip record is invalid. -/
structure Guard where
  state : GuardState
  permit : Bool
  clean : Nat
  joined : Option Byte
  trip : Option TripRecord
deriving DecidableEq, Repr

/-- The blocks of one arm: Report Monitor, Envelope Unit and Guard Controller (00_scope.md section 2.1). -/
structure ArmUnit where
  monitor : Monitor
  evaluation : Option Evaluation
  guard : Guard
deriving DecidableEq, Repr

/-! ### The Mode Controller (chapter 9) -/

/-- The cell mode (R148). -/
inductive Mode where
  | setup | guarding | halted
deriving DecidableEq, Repr

/-- The values of TRIP_SCOPE (R139). -/
inductive TripScope where
  | local_ | paired
deriving DecidableEq, Repr

/-- The parameters of one arm (R157). -/
structure ArmParams where
  toolRadius : Nat
  elbowRadius : Nat
  reaction : Nat
  decel : Nat
  vmax : Nat
  creep : Nat
  rearmCount : Nat
  reportPeriod : Nat
  staleLimit : Nat
deriving DecidableEq, Repr

/-- The parameter store (R157). -/
structure Params where
  ncol : Nat
  nrow : Nat
  pitch : Nat
  guardMargin : Nat
  waitLimit : Nat
  yieldPatience : Nat
  zoneLimit1 : Nat
  zoneLimit2 : Nat
  zoneLimit3 : Nat
  tripScope : TripScope
  armA : ArmParams
  armB : ArmParams
deriving DecidableEq, Repr

/-! ### Port units (chapter 10) -/

/-- The source of a HALTED notice (R152, R153). -/
inductive HaltSource where
  | request | line
deriving DecidableEq, Repr

/-- The cause of a cancellation (R166). -/
inductive CancelCause where
  | trip | evict | halt
deriving DecidableEq, Repr

/-- The reason of a refused report (R44). -/
inductive RefusedReason where
  | firstNotTool | elbowMissing
deriving DecidableEq, Repr

/-- The notice kinds, each with its detail (R169). -/
inductive Notice where
  | granted (k : SlotNo)
  | expired (k : SlotNo)
  | withdrawn (k : SlotNo) (t : Tile)
  | cancelled (k : SlotNo) (c : CancelCause)
  | yield (p : Party) (k : SlotNo)
  | shiftDone (k : SlotNo)
  | live (count : BitVec 4)
  | tripped (c : Cause)
  | evicted (g : GuardState)
  | stopped (m : Mode)
  | halted (src : HaltSource)
  | portFault
  | reportRefused (r : RefusedReason) (count : BitVec 4)
  | armTripped (x : Arm)
  | intrusion (x : Arm) (t : Tile)
  | blockDone
  | haltLine (m : Mode)
deriving DecidableEq, Repr

/-- The result codes (R168). -/
inductive Result where
  | done | queued | granted | closing | clamped
  | badFrame | badCheck | badKind | wrongMode | notJoined | staleGeometry | badRect | protected_
  | tableFull | pendingExists | cycle | noSuchClaim | occupied | notShiftable | armTripped
  | causeActive | holding | notTripped | badParam
deriving DecidableEq, Repr

/-- The source outcome of a granted SHIFT (R105). -/
inductive SourceOutcome where
  | draining | released
deriving DecidableEq, Repr

/-- A slot as READ_CLAIMS gives it (R79). -/
structure ClaimView where
  state : SlotState
  /-- `some false` ORDINARY, `some true` TRIP, `none` for an EMPTY slot. -/
  trip : Option Bool
  rect : Option Rect
  tiles : Option (Nat × Rect)
  position : Option Nat
  waitAge : Option Nat
  asked : Option Bool
  link : Option SlotNo
deriving DecidableEq, Repr

/-- An entry of the queue as READ_QUEUE gives it (R101). -/
structure QueueView where
  name : ClaimName
  rect : Rect
  source : Option SlotNo
  waitAge : Nat
  asked : Bool
  waitsOn : PartySet
deriving DecidableEq, Repr

/-- What READ_ARM gives (R167). -/
structure ArmView where
  state : GuardState
  joined : Option Byte
  lastReport : Option Report
  lastCount : Option (BitVec 4)
  missed : Nat
  evaluation : Option Evaluation
  tripTiles : Nat
deriving DecidableEq, Repr

/-- The payload of a reply, item by item as the rule of its request gives it. -/
inductive Payload where
  | empty
  /-- ACK: the codes of the kinds removed (R170). -/
  | removed (codes : List Nat)
  /-- READ_ROW (R20). -/
  | row (recs : List TileRecord)
  /-- WRITE_ROW: written and kept counts (R11). -/
  | rowWritten (written kept : Nat)
  /-- BLOCK: tiles gone CLOSING, tiles gone BLOCKED (R13). -/
  | blocked (closing blocked : Nat)
  /-- UNBLOCK: tiles gone OPEN (R17). -/
  | unblocked (opened : Nat)
  /-- CLAIM granted (R68). -/
  | claimGranted (k : SlotNo) (r : Rect)
  /-- CLAIM queued (R68). -/
  | claimQueued (k : SlotNo) (r : Rect) (waitsOn : PartySet)
  /-- PROTECTED or OCCUPIED: the tile (R68, R73, R105). -/
  | tile (t : Tile)
  /-- SHIFT queued (R105). -/
  | shiftQueued (target source : SlotNo) (r : Rect) (waitsOn : PartySet)
  /-- SHIFT granted (R105). -/
  | shiftGranted (target source : SlotNo) (r : Rect) (outcome : SourceOutcome) (freed : Nat)
  /-- RELEASE: slot, state before, tiles freed (R73). -/
  | released (slot : Nat) (before : SlotState) (freed : Nat)
  /-- READ_CLAIMS (R79). -/
  | claims (slots : List ClaimView)
  /-- READ_QUEUE (R101). -/
  | queue (entries : List QueueView)
  /-- JOIN: joined epoch, guard state before (R120). -/
  | joined (epoch : Option Byte) (before : GuardState)
  /-- LEAVE done (R124). -/
  | left (before : GuardState)
  /-- LEAVE refused HOLDING: the lowest slot that is not EMPTY (R124). -/
  | holdingSlot (slot : Nat)
  /-- CLEAR_TRIP done: the cause of the record (R125). -/
  | tripCleared (cause : Option Cause)
  /-- CLEAR_TRIP refused HOLDING: tile count of the trip claim (R125). -/
  | holdingTiles (n : Nat)
  /-- READ_TRIP: the trip record, `none` when invalid (R143). -/
  | trip (r : Option TripRecord)
  /-- EVICT: arm, state before, claims cancelled or released, tiles freed (R127). -/
  | evicted (x : Arm) (before : GuardState) (claims freed : Nat)
  /-- SET_PARAM and GET_PARAM: identifier, stored value (R159, R160). -/
  | param (ident : Byte) (value : Nat)
  /-- START: the new geometry epoch (R150). -/
  | started (epoch : Byte)
  /-- STOP: mode before, claims cleared, tiles gone from CLOSING to BLOCKED (R151). -/
  | stopped (before : Mode) (claims blocked : Nat)
  /-- HALT: pending claims cancelled, arms tripped (R152). -/
  | halted (cancelled : Nat) (arms : PartySet)
  /-- READ_ARM (R167). -/
  | arm (v : ArmView)
deriving DecidableEq, Repr

/-- The status block of a reply (R166). -/
inductive StatusBlock where
  | arm (state : GuardState) (permit : Bool) (clean missed : Nat) (slots : List SlotState)
  | cell (stateA stateB : GuardState) (permitA permitB : Bool) (slots : List SlotState) (closing : Nat)
deriving DecidableEq, Repr

/-- The fields of a NORMAL or RESTARTED reply (R166), as they stood when the reply was placed. -/
structure ReplyBody where
  tag : BitVec 4
  kind : Byte
  result : Result
  exception : Bool
  normalized : Bool
  lineAsserted : Bool
  mode : Mode
  epoch : Byte
  status : StatusBlock
  attention : List Notice
  payload : Payload
deriving DecidableEq, Repr

/-- A reply the buffer can hold (R162): NORMAL or RESTARTED. -/
inductive Reply where
  | normal (b : ReplyBody)
  | restarted (b : ReplyBody)
deriving DecidableEq, Repr

/-- A port unit (R161). `processing` is the request-in-processing flag together with the request it
stands for, and `reported` says that the report section of that request has been taken and its command
section has not: processing stands between steps 2 and 3 of R163 (log 27). `shifted` is the model's own record of what the port shifted out in the last exchange
(log 4). -/
structure Port where
  processing : Option Frame
  reported : Bool
  reply : Reply
  attention : List Notice
  line : Bool
  shifted : Frame
deriving DecidableEq, Repr

/-! ### The whole part -/

/-- The state of the part, its pins, and the model's own fields `freeCount` and `pending`. -/
structure State where
  /-- The part is held in reset (R156). -/
  held : Bool
  /-- HALT_N is low at its pin (R153). -/
  haltPinLow : Bool
  mode : Mode
  epoch : Byte
  /-- The halt-line level as taken: true for ASSERTED (R148). -/
  haltLevel : Bool
  params : Params
  tiles : TileMap
  /-- The closing-tile count (R16). -/
  closing : Nat
  claims : ClaimTable
  /-- The claim queue, head first (R80). -/
  queue : List ClaimName
  armA : ArmUnit
  armB : ArmUnit
  portA : Port
  portB : Port
  portC : Port
  /-- How many free values have been used (log 3). -/
  freeCount : Nat
  /-- The commands that wait, first in first out. -/
  pending : List Instr
deriving DecidableEq, Repr

/-- No fault stops this part: every abnormal event the spec describes is a refusal code in a reply, a
notice or a trip, and each of these is an effect on State. -/
inductive Fault where
deriving DecidableEq, Repr

/-- Why a command is refused by the model. -/
inductive Refusal where
  /-- Raised by an arm of `exec` for a command that has no meaning yet; safe. No arm raises it. -/
  | notModelled (mnemonic : String)
deriving DecidableEq, Repr

/-! ### Reset (R156) -/

/-- Every tile record after reset (R5). -/
def TileMap.initial : TileMap := ⟨List.replicate 128 .initial, by simp⟩

/-- A party's slots after reset (R61). -/
def Slots.initial : Slots := ⟨.empty, .empty, .empty, .empty⟩

/-- The claim table after reset (R61). -/
def ClaimTable.initial : ClaimTable := ⟨.initial, .initial, .initial, [], []⟩

/-- The per-arm defaults of the parameter store (R157). -/
def ArmParams.initial : ArmParams :=
  { toolRadius := 150, elbowRadius := 0, reaction := 10, decel := 25, vmax := 2500, creep := 50,
    rearmCount := 4, reportPeriod := 1000, staleLimit := 3 }

/-- The defaults of the parameter store (R157). -/
def Params.initial : Params :=
  { ncol := 8, nrow := 4, pitch := 500, guardMargin := 50, waitLimit := 2000, yieldPatience := 500,
    zoneLimit1 := 1000, zoneLimit2 := 500, zoneLimit3 := 100, tripScope := .local_,
    armA := .initial, armB := .initial }

/-- An arm's blocks after reset (R38, R42, R117). -/
def ArmUnit.initial : ArmUnit :=
  { monitor := ⟨none, none, 0, none⟩, evaluation := none,
    guard := { state := .offline, permit := false, clean := 0, joined := none, trip := none } }

/-- The RESTARTED reply of a port whose status block is `st`: tag 0, kind 0, result code 0, no
attention entry (R168). -/
def Reply.initial (st : StatusBlock) : Reply :=
  .restarted
    { tag := 0, kind := 0, result := .done, exception := false, normalized := false,
      lineAsserted := false, mode := .setup, epoch := 0, status := st, attention := [],
      payload := .empty }

/-- A port unit after reset (R161). -/
def Port.initial (st : StatusBlock) : Port :=
  { processing := none, reported := false, reply := .initial st, attention := [], line := false, shifted := ⟨[], []⟩ }

/-- The status block of an Arm Port after reset. -/
def StatusBlock.initialArm : StatusBlock := .arm .offline false 0 0 (List.replicate 5 .empty)

/-- The status block of the Cell Port after reset. -/
def StatusBlock.initialCell : StatusBlock :=
  .cell .offline .offline false false (List.replicate 4 .empty) 0

/-- The part right after it leaves reset with HALT_N high (R156; log 1). -/
def State.reset : State :=
  { held := false, haltPinLow := false, mode := .setup, epoch := 0, haltLevel := false,
    params := .initial, tiles := .initial, closing := 0, claims := .initial, queue := [],
    armA := .initial, armB := .initial,
    portA := .initial .initialArm, portB := .initial .initialArm, portC := .initial .initialCell,
    freeCount := 0, pending := [] }

end Sys2Proof.Machine
end

