-- ==== Sys2Proof/Machine/Ops.lean ====
section
/-! DEFINITION. The named operations over the parts of State: the two arms, the three ports, the tile
map, the claim table, the queue and the attention sets. -/

namespace Sys2Proof.Machine

open Sys2Proof

/-! ### Arms and ports -/

/-- The blocks of an arm. -/
def State.arm (s : State) : Arm → ArmUnit
  | .A => s.armA
  | .B => s.armB

/-- Replace the blocks of an arm. -/
def State.setArm (s : State) (x : Arm) (u : ArmUnit) : State :=
  match x with
  | .A => { s with armA := u }
  | .B => { s with armB := u }

/-- Replace the Report Monitor of an arm. -/
def State.setMonitor (s : State) (x : Arm) (m : Monitor) : State :=
  s.setArm x { s.arm x with monitor := m }

/-- Replace the evaluation record of an arm. -/
def State.setEvaluation (s : State) (x : Arm) (e : Option Evaluation) : State :=
  s.setArm x { s.arm x with evaluation := e }

/-- Replace the Guard Controller state of an arm. -/
def State.setGuard (s : State) (x : Arm) (g : Guard) : State :=
  s.setArm x { s.arm x with guard := g }

/-- The guard state of an arm. -/
def State.guardState (s : State) (x : Arm) : GuardState := (s.arm x).guard.state

/-- An arm that HALT, contact and scope can trip (R132). -/
def State.trippable (s : State) (x : Arm) : Bool :=
  s.guardState x == .arming || s.guardState x == .live

/-- The port of a party. -/
def State.port (s : State) : Party → Port
  | .A => s.portA
  | .B => s.portB
  | .C => s.portC

/-- Replace a port unit. -/
def State.setPort (s : State) (p : Party) (q : Port) : State :=
  match p with
  | .A => { s with portA := q }
  | .B => { s with portB := q }
  | .C => { s with portC := q }

/-- The parameters of an arm (R157). -/
def Params.arm (ps : Params) : Arm → ArmParams
  | .A => ps.armA
  | .B => ps.armB

/-! ### Attention sets (R169, R170) -/

/-- The kind code of a notice (R169). -/
def Notice.code : Notice → Nat
  | .granted _ => 1
  | .expired _ => 2
  | .withdrawn _ _ => 3
  | .cancelled _ _ => 4
  | .yield _ _ => 5
  | .shiftDone _ => 6
  | .live _ => 7
  | .tripped _ => 8
  | .evicted _ => 9
  | .stopped _ => 10
  | .halted _ => 11
  | .portFault => 12
  | .reportRefused _ _ => 13
  | .armTripped _ => 14
  | .intrusion _ _ => 15
  | .blockDone => 16
  | .haltLine _ => 17

/-- Enter a notice in an attention set kept in ascending code order: a kind present stays present once
and takes the new detail (R169). -/
def insertNotice (n : Notice) : List Notice → List Notice
  | [] => [n]
  | m :: ms =>
    if n.code < m.code then n :: m :: ms
    else if n.code = m.code then n :: ms
    else m :: insertNotice n ms

/-- Raise a notice at a port; its attention line is on from then (R169). -/
def Port.raise (q : Port) (n : Notice) : Port :=
  { q with attention := insertNotice n q.attention, line := true }

/-- Raise a notice in the attention set of a party's port (R169). -/
def State.raise (s : State) (p : Party) (n : Notice) : State := s.setPort p ((s.port p).raise n)

/-- Whether a list of kind codes names the kind of a notice (R170). -/
def Notice.listed (n : Notice) (codes : List Byte) : Bool := codes.any fun c => c.toNat == n.code

/-- Remove the listed kinds from a port's set; the attention line falls with the last one (R169, R170). -/
def Port.acknowledge (q : Port) (codes : List Byte) : Port :=
  let left := q.attention.filter fun n => !n.listed codes
  { q with attention := left, line := !left.isEmpty }

/-! ### Tiles (R1, R5) -/

/-- The place of a tile's record in the storage, in scan order. -/
def Tile.index (t : Tile) : Nat := 16 * t.row.val + t.col.val

/-- A tile's place lies within the 128 records of R1. -/
theorem Tile.index_lt (t : Tile) : t.index < 128 := by
  have h1 := t.col.isLt
  have h2 := t.row.isLt
  unfold Tile.index
  omega

/-- Every position of the storage in scan order: row 0 first, in a row column 0 first. -/
def allTiles : List Tile :=
  (List.finRange 8).flatMap fun r => (List.finRange 16).map fun c => ⟨c, r⟩

/-- The storage has 128 positions (R1). -/
theorem allTiles_length : allTiles.length = 128 := by simp [allTiles]

/-- The record of a tile. -/
def TileMap.get (m : TileMap) (t : Tile) : TileRecord :=
  m.recs[t.index]'(by rw [m.complete]; exact t.index_lt)

/-- Rewrite every record of the map, each from its position and its value. -/
def TileMap.update (f : Tile → TileRecord → TileRecord) (m : TileMap) : TileMap :=
  ⟨List.zipWith f allTiles m.recs, by simp [allTiles_length, m.complete]⟩

/-- The record of a tile in the state. -/
def State.tile (s : State) (t : Tile) : TileRecord := s.tiles.get t

/-- A position of the active grid (R1). -/
def Params.active (ps : Params) (t : Tile) : Bool :=
  decide (t.col.val < ps.ncol) && decide (t.row.val < ps.nrow)

/-- A tile of a rectangle. -/
def Rect.contains (r : Rect) (t : Tile) : Bool :=
  decide (r.col0 ≤ t.col.val) && decide (t.col.val ≤ r.col1) &&
    decide (r.row0 ≤ t.row.val) && decide (t.row.val ≤ r.row1)

/-- Two normalized rectangles share a tile. -/
def Rect.overlaps (r q : Rect) : Bool :=
  decide (max r.col0 q.col0 ≤ min r.col1 q.col1) && decide (max r.row0 q.row0 ≤ min r.row1 q.row1)

/-- How many positions satisfy a test. -/
def countTiles (f : Tile → Bool) : Nat := allTiles.countP f

/-- The first position in scan order that satisfies a test (00_scope.md section 5.2). -/
def firstTile (f : Tile → Bool) : Option Tile := allTiles.find? f

/-- A hold of party `p` is added: a free tile gains the owner (R67, R135). -/
def TileRecord.addHold (r : TileRecord) (p : Party) : TileRecord :=
  { r with owner := some p, hold := r.hold + 1 }

/-- The hold that a release would end is the tile's last: the release frees the tile (R69). -/
def TileRecord.lastHold (r : TileRecord) : Bool := decide (r.hold ≤ 1)

/-- A hold ends (R69 step 1). With the last one the owner becomes NONE, and a CLOSING tile becomes
BLOCKED (R15). -/
def TileRecord.dropHold (r : TileRecord) : TileRecord :=
  if r.lastHold then
    { r with service := if r.service = .closing then .blocked else r.service, owner := none, hold := 0 }
  else { r with hold := r.hold - 1 }

/-! ### The closing-tile count (R16) -/

/-- Lower the closing-tile count by `n`; BLOCK_DONE is raised at the Cell Port when it falls to 0 from
a value above 0 (R16). -/
def State.lowerClosing (s : State) (n : Nat) : State :=
  let s1 := { s with closing := s.closing - n }
  if 0 < s.closing ∧ s.closing - n = 0 then s1.raise .C .blockDone else s1

/-- Add a hold of party `p` to every tile that satisfies the test (R67, R135). -/
def State.addHolds (s : State) (p : Party) (f : Tile → Bool) : State :=
  { s with tiles := s.tiles.update fun t r => if f t then r.addHold p else r }

/-- End one hold of every tile that satisfies the test, with the closing transitions of R15 and the
count of R16 (R69 step 1). -/
def State.dropHolds (s : State) (f : Tile → Bool) : State :=
  let closed := countTiles fun t => f t && (s.tile t).lastHold && (s.tile t).service == .closing
  let s1 := { s with tiles := s.tiles.update fun t r => if f t then r.dropHold else r }
  s1.lowerClosing closed

/-- How many tiles a release of the tiles that satisfy the test would free (R69, R73). -/
def State.freedBy (s : State) (f : Tile → Bool) : Nat := countTiles fun t => f t && (s.tile t).lastHold

/-! ### The claim table (R59, R60) -/

/-- The claim in a slot. -/
def Slots.get (c : Slots) : SlotNo → Claim
  | 0 => c.s0
  | 1 => c.s1
  | 2 => c.s2
  | 3 => c.s3

/-- Replace the claim in a slot. -/
def Slots.set (c : Slots) (k : SlotNo) (x : Claim) : Slots :=
  match k with
  | 0 => { c with s0 := x }
  | 1 => { c with s1 := x }
  | 2 => { c with s2 := x }
  | 3 => { c with s3 := x }

/-- Apply a change to every slot. -/
def Slots.map (c : Slots) (f : Claim → Claim) : Slots := ⟨f c.s0, f c.s1, f c.s2, f c.s3⟩

/-- The slots of a party. -/
def ClaimTable.slots (c : ClaimTable) : Party → Slots
  | .A => c.a
  | .B => c.b
  | .C => c.c

/-- Replace the slots of a party. -/
def ClaimTable.setSlots (c : ClaimTable) (p : Party) (x : Slots) : ClaimTable :=
  match p with
  | .A => { c with a := x }
  | .B => { c with b := x }
  | .C => { c with c := x }

/-- The tile set of slot 4 of an arm; empty when the slot is EMPTY (R77). -/
def ClaimTable.trip (c : ClaimTable) : Arm → List Tile
  | .A => c.tripA
  | .B => c.tripB

/-- Replace the tile set of slot 4 of an arm. -/
def ClaimTable.setTrip (c : ClaimTable) (x : Arm) (ts : List Tile) : ClaimTable :=
  match x with
  | .A => { c with tripA := ts }
  | .B => { c with tripB := ts }

/-- The claim of a party in a slot. -/
def State.slot (s : State) (p : Party) (k : SlotNo) : Claim := (s.claims.slots p).get k

/-- Replace the claim of a party in a slot. -/
def State.setSlot (s : State) (p : Party) (k : SlotNo) (c : Claim) : State :=
  { s with claims := s.claims.setSlots p ((s.claims.slots p).set k c) }

/-- Apply a change to every ordinary slot of a party. -/
def State.mapSlots (s : State) (p : Party) (f : Claim → Claim) : State :=
  { s with claims := s.claims.setSlots p ((s.claims.slots p).map f) }

/-- The tiles of an arm's trip claim. -/
def State.tripTiles (s : State) (x : Arm) : List Tile := s.claims.trip x

/-- Replace the tiles of an arm's trip claim. -/
def State.setTripTiles (s : State) (x : Arm) (ts : List Tile) : State :=
  { s with claims := s.claims.setTrip x ts }

/-- The state of an ordinary slot (R60). -/
def Claim.state : Claim → SlotState
  | .empty => .empty
  | .pending .. => .pending
  | .held .. => .held
  | .draining .. => .draining

/-- The rectangle whose tiles the claim counts in hold counts: that of a HELD or DRAINING claim (R60). -/
def Claim.heldRect : Claim → Option Rect
  | .held r _ => some r
  | .draining r _ => some r
  | .empty => none
  | .pending .. => none

/-- The slots of a party in order. -/
def slotNos : List SlotNo := [0, 1, 2, 3]

/-- The state of slot 4 of an arm: HELD while a trip claim stands in it (R77). -/
def State.tripState (s : State) (x : Arm) : SlotState :=
  if s.tripTiles x = [] then .empty else .held

/-- The links to a claim that leaves its slot are cleared; a DRAINING source whose target it was
returns to HELD (R69 step 2). -/
def Claim.unlink (k : SlotNo) : Claim → Claim
  | .pending r w (some j) => .pending r w (if j = k then none else some j)
  | .held r (some j) => .held r (if j = k then none else some j)
  | .draining r j => if j = k then .held r none else .draining r j
  | .empty => .empty
  | .pending r w none => .pending r w none
  | .held r none => .held r none

/-! ### The claim queue (R80, R81) -/

/-- A queue entry with the fields of its claim. -/
structure Waiter where
  name : ClaimName
  rect : Rect
  wait : Waiting
  link : Option SlotNo
deriving DecidableEq, Repr

/-- The waiting claim that a queue entry names. -/
def State.waiter (s : State) (n : ClaimName) : Option Waiter :=
  match s.slot n.party n.slot with
  | .pending r w l => some ⟨n, r, w, l⟩
  | _ => none

/-- The claims of the queue, head first. -/
def State.waiters (s : State) : List Waiter := s.queue.filterMap s.waiter

/-- The PENDING claim of a party, if it has one (R64, R80). -/
def State.pendingOf (s : State) (p : Party) : Option Waiter :=
  s.waiters.find? fun w => w.name.party == p

/-- An arrival number greater than that of every claim in the queue (R81). -/
def State.nextArrival (s : State) : Nat := (s.waiters.map fun w => w.wait.arrival).foldr max 0 + 1

/-- A claim becomes PENDING in a slot and enters the queue at its tail, its wait age 0 (R80, R91). -/
def State.enqueue (s : State) (p : Party) (k : SlotNo) (r : Rect) (link : Option SlotNo) : State :=
  let s1 := s.setSlot p k (.pending r ⟨s.nextArrival, 0, false⟩ link)
  { s1 with queue := s.queue ++ [⟨p, k⟩] }

/-- A claim leaves the queue. -/
def State.dequeue (s : State) (n : ClaimName) : State := { s with queue := s.queue.filter (· ≠ n) }

/-- A PENDING claim is removed: it leaves the queue, its slot becomes EMPTY and its record is
discarded; its shift source is left HELD and unlinked (R72, R92, R94, R95). -/
def State.removePending (s : State) (n : ClaimName) : State :=
  (s.dequeue n).setSlot n.party n.slot .empty

/-- Cancel the PENDING claim of a party, if it has one, with CANCELLED at its port (R95 to R97). -/
def State.cancelPending (s : State) (p : Party) (c : CancelCause) : State :=
  match s.pendingOf p with
  | some w => (s.removePending w.name).raise p (.cancelled w.name.slot c)
  | none => s

/-! ### Sets of parties -/

/-- The set of the parties that satisfy a test. -/
def PartySet.of (f : Party → Bool) : PartySet := ⟨f .A, f .B, f .C⟩

/-- Membership in a set of parties. -/
def PartySet.has (ps : PartySet) : Party → Bool
  | .A => ps.a
  | .B => ps.b
  | .C => ps.c

end Sys2Proof.Machine
end

