-- ==== Sys2Proof/Machine/Operands.lean ====
section
/-! DEFINITION. The operand forms of the requests: rectangles, party and arm codes, parameter
identifiers and values, and the tile attribute entries of WRITE_ROW. -/

namespace Sys2Proof.Machine

open Sys2Proof

/-! ### Rectangles (R63) -/

/-- The four values of a rectangle as sent, normalized, and whether normalizing exchanged a pair; `none`
where a value lies beyond the active grid, which is refused BAD_RECT (R63). -/
def Params.rect (ps : Params) (c0 c1 r0 r1 : Byte) : Option (Rect × Bool) :=
  if ps.ncol ≤ c0.toNat ∨ ps.ncol ≤ c1.toNat ∨ ps.nrow ≤ r0.toNat ∨ ps.nrow ≤ r1.toNat then none
  else
    some
      (⟨min c0.toNat c1.toNat, max c0.toNat c1.toNat, min r0.toNat r1.toNat, max r0.toNat r1.toNat⟩,
        decide (c1.toNat < c0.toNat) || decide (r1.toNat < r0.toNat))

/-! ### Codes (R166) -/

/-- The arm a code names: 0 A, 1 B. -/
def armOfCode (b : Byte) : Option Arm :=
  match b.toNat with
  | 0 => some .A
  | 1 => some .B
  | _ => none

/-- The party a code names: 0 A, 1 B, 2 C. -/
def partyOfCode (b : Byte) : Option Party :=
  match b.toNat with
  | 0 => some .A
  | 1 => some .B
  | 2 => some .C
  | _ => none

/-- The ordinary slot a byte names. -/
def slotOfByte (b : Byte) : Option SlotNo := if h : b.toNat < 4 then some ⟨b.toNat, h⟩ else none

/-! ### Parameters (R157 to R159) -/

/-- The range of a per-arm parameter, by its place 1..9 in R157. -/
def armParamRange : Nat → Option (Nat × Nat)
  | 1 => some (0, 1000)
  | 2 => some (0, 1000)
  | 3 => some (1, 50)
  | 4 => some (5, 200)
  | 5 => some (100, 4000)
  | 6 => some (10, 200)
  | 7 => some (1, 16)
  | 8 => some (250, 4000)
  | 9 => some (1, 8)
  | _ => none

/-- The range of the parameter an identifier names; `none` for an identifier that is not one of the 28
of R157. -/
def paramRange (n : Nat) : Option (Nat × Nat) :=
  match n with
  | 1 => some (2, 16)
  | 2 => some (1, 8)
  | 3 => some (100, 2000)
  | 4 => some (0, 500)
  | 5 => some (0, 60000)
  | 6 => some (10, 60000)
  | 7 => some (10, 4000)
  | 8 => some (10, 4000)
  | 9 => some (10, 4000)
  | 10 => some (0, 1)
  | _ =>
    if 17 ≤ n ∧ n ≤ 25 then armParamRange (n - 16)
    else if 33 ≤ n ∧ n ≤ 41 then armParamRange (n - 32)
    else none

/-- The identifiers of REPORT_PERIOD (A) and (B), whose values are multiples of 250 (R56). -/
def isPeriod (n : Nat) : Bool := n == 24 || n == 40

/-- A value saturated to a range (R159). -/
def saturate (lo hi v : Nat) : Nat := max lo (min v hi)

/-- The value SET_PARAM stores for a value written: rounded down to a multiple of 250 for
REPORT_PERIOD, then saturated (R56, R159). -/
def storedValue (n v : Nat) (range : Nat × Nat) : Nat :=
  saturate range.1 range.2 (if isPeriod n then v / 250 * 250 else v)

/-- A per-arm parameter by its place 1..9. -/
def ArmParams.read (a : ArmParams) : Nat → Nat
  | 1 => a.toolRadius
  | 2 => a.elbowRadius
  | 3 => a.reaction
  | 4 => a.decel
  | 5 => a.vmax
  | 6 => a.creep
  | 7 => a.rearmCount
  | 8 => a.reportPeriod
  | 9 => a.staleLimit
  | _ => 0

/-- Replace a per-arm parameter by its place 1..9. -/
def ArmParams.write (a : ArmParams) (i v : Nat) : ArmParams :=
  match i with
  | 1 => { a with toolRadius := v }
  | 2 => { a with elbowRadius := v }
  | 3 => { a with reaction := v }
  | 4 => { a with decel := v }
  | 5 => { a with vmax := v }
  | 6 => { a with creep := v }
  | 7 => { a with rearmCount := v }
  | 8 => { a with reportPeriod := v }
  | 9 => { a with staleLimit := v }
  | _ => a

/-- The number that carries a TRIP_SCOPE value (R157). -/
def TripScope.code : TripScope → Nat
  | .local_ => 0
  | .paired => 1

/-- The stored value of the parameter an identifier names (R160). -/
def Params.read (ps : Params) (n : Nat) : Nat :=
  match n with
  | 1 => ps.ncol
  | 2 => ps.nrow
  | 3 => ps.pitch
  | 4 => ps.guardMargin
  | 5 => ps.waitLimit
  | 6 => ps.yieldPatience
  | 7 => ps.zoneLimit1
  | 8 => ps.zoneLimit2
  | 9 => ps.zoneLimit3
  | 10 => ps.tripScope.code
  | _ => if n < 32 then ps.armA.read (n - 16) else ps.armB.read (n - 32)

/-- Store a value under an identifier (R159). -/
def Params.write (ps : Params) (n v : Nat) : Params :=
  match n with
  | 1 => { ps with ncol := v }
  | 2 => { ps with nrow := v }
  | 3 => { ps with pitch := v }
  | 4 => { ps with guardMargin := v }
  | 5 => { ps with waitLimit := v }
  | 6 => { ps with yieldPatience := v }
  | 7 => { ps with zoneLimit1 := v }
  | 8 => { ps with zoneLimit2 := v }
  | 9 => { ps with zoneLimit3 := v }
  | 10 => { ps with tripScope := if v = 0 then .local_ else .paired }
  | _ =>
    if n < 32 then { ps with armA := ps.armA.write (n - 16) v }
    else { ps with armB := ps.armB.write (n - 32) v }

/-! ### Entries of WRITE_ROW (R9 to R11, R166) -/

/-- The service and class a valid entry sets: service OPEN or BLOCKED, class 0..3; `none` for an entry
that is kept (R11). -/
def entryValue (e : Byte) : Option (Service × Fin 4) :=
  let sv := (e.extractLsb' 4 4).toNat
  let cl := (e.extractLsb' 0 4).toNat
  if h : cl < 4 then
    if sv = 0 then some (.opened, ⟨cl, h⟩)
    else if sv = 1 then some (.blocked, ⟨cl, h⟩)
    else none
  else none

/-- The effective entries with the columns they address: entry `i` addresses column (start + i) modulo
NCOL, and the first n − NCOL entries are discarded where n exceeds NCOL (R10). -/
def effectiveEntries (ncol start : Nat) (entries : List Byte) : List (Nat × Byte) :=
  (entries.zipIdx.drop (entries.length - ncol)).map fun e => ((start + e.2) % ncol, e.1)

/-- A tile record after an accepted WRITE_ROW of its row: the effective entry that addresses its column
sets service and class together, or keeps both (R11). -/
def TileRecord.writeEntry (r : TileRecord) (effective : List (Nat × Byte)) (col : Nat) : TileRecord :=
  match effective.find? fun e => e.1 == col with
  | none => r
  | some e =>
    match entryValue e.2 with
    | none => r
    | some v => { r with service := v.1, speedClass := v.2 }

end Sys2Proof.Machine

namespace Sys2Proof

/-! ### Signed quantities of a report (R41, R166) -/

/-- Position of a probe, west to east, as a signed integer (R41). -/
def Probe.sx (q : Probe) : Int := q.x.toInt

/-- Position, south to north. -/
def Probe.sy (q : Probe) : Int := q.y.toInt

/-- Velocity along x. -/
def Probe.svx (q : Probe) : Int := q.vx.toInt

/-- Velocity along y. -/
def Probe.svy (q : Probe) : Int := q.vy.toInt

/-- The probe speed: the greater of |vx| and |vy| (R24). -/
def Probe.speed (q : Probe) : Nat := max q.svx.natAbs q.svy.natAbs

/-- The probe kind a code names: 1 TOOL, 2 ELBOW, none for an undefined code (R166). -/
def Probe.guarded (q : Probe) : Option Machine.ProbeKind :=
  match q.kind.toNat with
  | 1 => some .tool
  | 2 => some .elbow
  | _ => none

/-- The probe records an evaluation evaluates: the first as the TOOL, and the second as the ELBOW where
ELBOW_RADIUS is above 0 (R21). -/
def Report.evaluated (rep : Report) (a : Machine.ArmParams) : Option (Probe × Option Probe) :=
  match rep.probes with
  | [] => none
  | tool :: more => some (tool, if 0 < a.elbowRadius then more.head? else none)

end Sys2Proof
end

