-- ==== Sys2Proof/Machine/Flags.lean ====
section
/-! DEFINITION. The marks and status blocks that the part derives from its state when a reply is
placed (R166, R168), and the placing of a reply (R163). -/

namespace Sys2Proof.Machine

open Sys2Proof

/-- The exception kinds (R169). -/
def Notice.isException : Notice → Bool
  | .tripped _ => true
  | .halted _ => true
  | .portFault => true
  | .reportRefused _ _ => true
  | .armTripped _ => true
  | .intrusion _ _ => true
  | .haltLine _ => true
  | .granted _ => false
  | .expired _ => false
  | .withdrawn _ _ => false
  | .cancelled _ _ => false
  | .yield _ _ => false
  | .shiftDone _ => false
  | .live _ => false
  | .evicted _ => false
  | .stopped _ => false
  | .blockDone => false

/-- The exception mark: the attention set holds at least one exception kind (R168). -/
def Port.exception (q : Port) : Bool := q.attention.any Notice.isException

/-- The states of the four ordinary slots of a party. -/
def State.slotStates (s : State) (p : Party) : List SlotState := slotNos.map fun k => (s.slot p k).state

/-- The status block of an Arm Port: guard state, permit, clean count, missed count, slot states 0..4
(R166). -/
def State.armStatus (s : State) (x : Arm) : StatusBlock :=
  .arm (s.guardState x) (s.arm x).guard.permit (s.arm x).guard.clean (s.arm x).monitor.missed
    (s.slotStates x.party ++ [s.tripState x])

/-- The status block of the Cell Port: both guard states, both permits, slot states 0..3 of C, the
closing-tile count (R166). -/
def State.cellStatus (s : State) : StatusBlock :=
  .cell (s.guardState .A) (s.guardState .B) s.armA.guard.permit s.armB.guard.permit (s.slotStates .C)
    s.closing

/-- The status block of a port (R166). -/
def State.status (s : State) (p : Party) : StatusBlock :=
  match p.arm with
  | some x => s.armStatus x
  | none => s.cellStatus

/-- What a request's processing answers: the result code, the NORMALIZED mark and the payload (R168). -/
structure Answer where
  result : Result
  normalized : Bool := false
  payload : Payload := .empty
deriving DecidableEq, Repr

/-- A reply with its header fields taken from the state as it stands (R163 step 4). -/
def State.replyBody (s : State) (p : Party) (tag : BitVec 4) (kind : Byte) (a : Answer) : ReplyBody :=
  { tag := tag, kind := kind, result := a.result, exception := (s.port p).exception,
    normalized := a.normalized, lineAsserted := s.haltLevel, mode := s.mode, epoch := s.epoch,
    status := s.status p, attention := (s.port p).attention, payload := a.payload }

/-- The reply is placed in the port's buffer and the request-in-processing flag is cleared (R163 step 4). -/
def State.placeReply (s : State) (p : Party) (tag : BitVec 4) (kind : Byte) (a : Answer) : State :=
  s.setPort p { s.port p with reply := .normal (s.replyBody p tag kind a), processing := none, reported := false }

/-- The RESTARTED reply is placed: tag 0, kind 0, result code 0, header and attention entries as they
stand (R168). -/
def State.placeRestarted (s : State) (p : Party) : State :=
  s.setPort p { s.port p with reply := .restarted (s.replyBody p 0 0 ⟨.done, false, .empty⟩) }

/-- The command whose request is in processing at a port: the frame taken passes the frame checks and spells it
(R163, R165). -/
def State.inProcessing (s : State) (p : Party) : Option Instr :=
  match (s.port p).processing with
  | some f =>
    match decodeFrame p f with
    | .accepted c => some c
    | .refused _ => none
  | none => none

/-- The port has taken the request of this command, and its reply has not been placed (R163). -/
def State.taken (s : State) (p : Party) (c : Instr) : Bool := decide (s.inProcessing p = some c)

/-- The report that the request in processing at a port carries (R43). -/
def State.carriedReport (s : State) (p : Party) : Option Report :=
  (s.inProcessing p).bind fun c => c.request.bind fun q => q.rep

end Sys2Proof.Machine
end

