-- ==== Sys2Proof/Machine/Envelope.lean ====
section
/-! DEFINITION. The Envelope Unit (chapter 2): stopping envelopes in exact integer arithmetic, tile
cover, the tile and zone tests, and the evaluation record. -/

namespace Sys2Proof.Machine

open Sys2Proof

/-! ### Stop distance, inflation and the interval (R25 to R28) -/

/-- Ceiling division of non-negative integers (R25). -/
def ceilDiv (n d : Nat) : Nat := (n + d - 1) / d

/-- Stop distance of one axis: reaction term plus braking term, each rounded up (R25). -/
def stopDistance (v reaction decel : Nat) : Nat :=
  ceilDiv (v * reaction) 100 + ceilDiv (v * v) (200 * decel)

/-- Inflation of one axis for `m` missed reports (R26). -/
def inflation (v m period : Nat) : Nat := ceilDiv (v * m * period) 100000

/-- The closed interval of one axis: the enlargement `f` on both sides, the stop distance and the
inflation on the side of motion (R28). -/
def axisInterval (c v : Int) (f reach : Nat) : Int × Int :=
  if 0 < v then (c - f, c + f + reach)
  else if v < 0 then (c - f - reach, c + f)
  else (c - f, c + f)

/-- How far a probe can still travel along an axis: stop distance plus inflation (R25, R26). -/
def ArmParams.reach (a : ArmParams) (v : Int) (m : Nat) : Nat :=
  stopDistance v.natAbs a.reaction a.decel + inflation v.natAbs m a.reportPeriod

/-! ### Tile cover (R29 to R31) -/

/-- The column range of an x interval, `none` where it covers no column (R29). -/
def Params.colRange (ps : Params) (xLo xHi : Int) : Option (Nat × Nat) :=
  let lo := xLo / (ps.pitch : Int)
  let hi := xHi / (ps.pitch : Int)
  if hi < 0 ∨ (ps.ncol : Int) ≤ lo then none
  else some ((max lo 0).toNat, (min hi ((ps.ncol : Int) - 1)).toNat)

/-- A row index clamped to 0..NROW−1 (R30). -/
def Params.clampRow (ps : Params) (i : Int) : Nat := (min (max i 0) ((ps.nrow : Int) - 1)).toNat

/-- The row range of a y interval, folded onto the edge rows (R4, R30). -/
def Params.rowRange (ps : Params) (yLo yHi : Int) : Nat × Nat :=
  (ps.clampRow (yLo / (ps.pitch : Int)), ps.clampRow (yHi / (ps.pitch : Int)))

/-- The stopping envelope of a probe of an arm with `m` missed reports, `r` being the probe's radius
(R28 to R30). -/
def Params.envelope (ps : Params) (a : ArmParams) (r m : Nat) (q : Probe) : Envelope :=
  let f := r + ps.guardMargin
  let xs := axisInterval q.sx q.svx f (a.reach q.svx m)
  let ys := axisInterval q.sy q.svy f (a.reach q.svy m)
  { xLo := xs.1, xHi := xs.2, yLo := ys.1, yHi := ys.2,
    cols := ps.colRange xs.1 xs.2, rows := ps.rowRange ys.1 ys.2,
    west := decide (xs.1 < 0), east := decide ((ps.ncol : Int) * ps.pitch ≤ xs.2) }

/-- A tile of the cover of a probe (R31). -/
def Envelope.covers (e : Envelope) (t : Tile) : Bool :=
  match e.cols with
  | none => false
  | some (lo, hi) =>
    decide (lo ≤ t.col.val) && decide (t.col.val ≤ hi) &&
      decide (e.rows.1 ≤ t.row.val) && decide (t.row.val ≤ e.rows.2)

/-- The far-side excursion flag of an envelope: east for arm A, west for arm B (R3, R33). -/
def Envelope.farSide (e : Envelope) : Arm → Bool
  | .A => e.east
  | .B => e.west

/-- A tile of the cover of a probe entry; an entry without envelope covers none (R31, R38). -/
def ProbeEntry.covers (e : ProbeEntry) (t : Tile) : Bool :=
  match e.envelope with
  | none => false
  | some v => v.covers t

/-- A tile of the cover of an evaluation: the union of the covers of its probes (R31). -/
def Evaluation.covers (e : Evaluation) (t : Tile) : Bool :=
  e.tool.covers t ||
    (match e.elbow with
      | none => false
      | some b => b.covers t)

/-- The arm's envelope touches a tile (R31): the tile lies in the cover of its evaluation record. -/
def State.touches (s : State) (x : Arm) (t : Tile) : Bool :=
  match (s.arm x).evaluation with
  | none => false
  | some e => e.covers t

/-! ### The tile test and the zone speed test (R32 to R34) -/

/-- The classification of a covered tile (R32). -/
inductive TileClass where
  | ok | foreign | blocked | unclaimed
deriving DecidableEq, Repr

/-- Classify a tile record for the arm that is evaluated (R32). -/
def TileRecord.classify (r : TileRecord) (x : Arm) : TileClass :=
  match r.owner with
  | some p => if p = x.party then .ok else .foreign
  | none => if r.service = .blocked then .blocked else .unclaimed

/-- The zone speed limit of a speed class; class 0 imposes none (R8). -/
def Params.zoneLimit (ps : Params) (c : Fin 4) : Option Nat :=
  match c with
  | 0 => none
  | 1 => some ps.zoneLimit1
  | 2 => some ps.zoneLimit2
  | 3 => some ps.zoneLimit3

/-- The lesser of two limits, where `none` is no limit. -/
def lesserLimit : Option Nat → Option Nat → Option Nat
  | none, b => b
  | a, none => a
  | some a, some b => some (min a b)

/-- The lowest zone limit among the covered tiles (R34). -/
def State.lowestZone (s : State) (e : Envelope) : Option Nat :=
  ((allTiles.filter e.covers).map fun t => s.params.zoneLimit (s.tile t).speedClass).foldr lesserLimit none

/-- A speed is above a limit; nothing is above no limit. -/
def aboveLimit (speed : Nat) : Option Nat → Bool
  | none => false
  | some l => decide (l < speed)

/-- The first covered tile in scan order with a given classification (R35). -/
def State.firstOfClass (s : State) (x : Arm) (e : Envelope) (c : TileClass) : Option Tile :=
  firstTile fun t => e.covers t && (s.tile t).classify x == c

/-- The probe result of a probe whose envelope was computed, with its offending tile: the cause of
highest priority that it shows (R35). -/
def State.probeResult (s : State) (x : Arm) (e : Envelope) (speed : Nat) : ProbeResult × Option Tile :=
  if e.farSide x then (.breach .farSide, none)
  else
    match s.firstOfClass x e .foreign with
    | some t => (.breach .foreign, some t)
    | none =>
    match s.firstOfClass x e .blocked with
    | some t => (.breach .blocked, some t)
    | none =>
    match s.firstOfClass x e .unclaimed with
    | some t => (.breach .unclaimed, some t)
    | none =>
      if aboveLimit speed (s.lowestZone e) then
        (.breach .zoneSpeed,
          firstTile fun t => e.covers t && aboveLimit speed (s.params.zoneLimit (s.tile t).speedClass))
      else (.clear, none)

/-- The entry of a probe whose envelope is computed (R37). -/
def State.probeEntry (s : State) (x : Arm) (r m : Nat) (q : Probe) : ProbeEntry :=
  let e := s.params.envelope (s.params.arm x) r m q
  let res := s.probeResult x e q.speed
  { speed := q.speed, result := res.1, tile := res.2, envelope := some e }

/-- The entry of a probe in an OVERSPEED evaluation: its envelope is the one kept from the record as it
stood (R23, R35, R38). -/
def overspeedEntry (vmax : Nat) (q : Probe) (kept : Option Envelope) : ProbeEntry :=
  { speed := q.speed, result := if vmax < q.speed then .breach .overspeed else .notTested, tile := none,
    envelope := kept }

/-! ### The result of an evaluation (R35 to R38) -/

/-- The priority of an evaluation's cause, 1 highest (R35). The trip causes beyond ZONE_SPEED do not
arise in an evaluation (R36). -/
def Cause.priority : Cause → Nat
  | .overspeed => 1
  | .farSide => 2
  | .foreign => 3
  | .blocked => 4
  | .unclaimed => 5
  | .zoneSpeed => 6
  | .stale => 7
  | .halt => 8
  | .foreignContact => 9
  | .farContact => 10

/-- The cause of a probe result, if it is a breach. -/
def ProbeResult.cause : ProbeResult → Option Cause
  | .breach c => some c
  | .clear => none
  | .notTested => none

/-- The cause, probe kind and offending tile of an evaluation from its entries: the cause of highest
priority, and where both probes have it the TOOL (R36). -/
def verdict (tool : ProbeEntry) (elbow : Option ProbeEntry) : Option (Cause × ProbeKind × Option Tile) :=
  match tool.result.cause, elbow.bind fun e => e.result.cause.map fun c => (c, e.tile) with
  | none, none => none
  | some c, none => some (c, .tool, tool.tile)
  | none, some (d, t) => some (d, .elbow, t)
  | some c, some (d, t) => if d.priority < c.priority then some (d, .elbow, t) else some (c, .tool, tool.tile)

/-- The foreign owners: the parties other than the arm's that own covered tiles (R32). -/
def State.foreignOwners (s : State) (x : Arm) (covers : Tile → Bool) : PartySet :=
  PartySet.of fun p => decide (p ≠ x.party) && allTiles.any fun t => covers t && (s.tile t).owner == some p

/-- The envelope that a record holds for the TOOL, if any (R38). -/
def keptTool (old : Option Evaluation) : Option Envelope := old.bind fun e => e.tool.envelope

/-- The envelope that a record holds for the ELBOW, if any (R38). -/
def keptElbow (old : Option Evaluation) : Option Envelope :=
  old.bind fun e => e.elbow.bind fun b => b.envelope

/-- The evaluation of a tool and, where it is evaluated, an elbow probe, with the report count `count`
and missed count `m` (R21 to R38). An OVERSPEED evaluation keeps the envelopes of the record as it
stood and sets the retained flag (R38; log 12). -/
def State.evaluateProbes (s : State) (x : Arm) (count : BitVec 4) (m : Nat) (tool : Probe)
    (elbow : Option Probe) : Evaluation :=
  let a := s.params.arm x
  let old := (s.arm x).evaluation
  let fast := decide (a.vmax < tool.speed) || elbow.any fun q => decide (a.vmax < q.speed)
  if fast then
    let te := overspeedEntry a.vmax tool (keptTool old)
    let be := elbow.map fun q => overspeedEntry a.vmax q (keptElbow old)
    { count := count, missed := m, result := some .overspeed,
      kind := some (if a.vmax < tool.speed then .tool else .elbow), tile := none,
      foreign := ⟨false, false, false⟩, retained := true, tool := te, elbow := be }
  else
    let te := s.probeEntry x a.toolRadius m tool
    let be := elbow.map fun q => s.probeEntry x a.elbowRadius m q
    let v := verdict te be
    { count := count, missed := m, result := v.map fun c => c.1, kind := v.map fun c => c.2.1,
      tile := v.bind fun c => c.2.2,
      foreign := s.foreignOwners x fun t => te.covers t || (be.any fun e => e.covers t),
      retained := false, tool := te, elbow := be }

/-- The evaluation of a report with missed count `m`; none for a report without a probe record, which
is never stored (R44). -/
def State.evaluate (s : State) (x : Arm) (rep : Report) (m : Nat) : Option Evaluation :=
  (rep.evaluated (s.params.arm x)).map fun q => s.evaluateProbes x rep.count m q.1 q.2

/-- The greatest probe speed of the entries of a record (R142). -/
def Evaluation.maxSpeed (e : Evaluation) : Nat :=
  max e.tool.speed (match e.elbow with
    | none => 0
    | some b => b.speed)

/-- The probe speed of a probe of the record (R142). -/
def Evaluation.speedOf (e : Evaluation) : ProbeKind → Nat
  | .tool => e.tool.speed
  | .elbow => match e.elbow with
    | none => 0
    | some b => b.speed

/-- The envelopes a record holds. -/
def Evaluation.envelopes (e : Evaluation) : List Envelope :=
  e.tool.envelope.toList ++ (e.elbow.bind fun b => b.envelope).toList

/-- A record's far-side excursion flag is set for the arm (R137). -/
def Evaluation.farSide (e : Evaluation) (x : Arm) : Bool := e.envelopes.any fun v => v.farSide x

/-- The smallest rectangle containing two envelope rectangles. -/
def EnvelopeRect.join (p q : EnvelopeRect) : EnvelopeRect :=
  ⟨min p.xLo q.xLo, max p.xHi q.xHi, min p.yLo q.yLo, max p.yHi q.yHi⟩

/-- The rectangle of one envelope. -/
def Envelope.rect (e : Envelope) : EnvelopeRect := ⟨e.xLo, e.xHi, e.yLo, e.yHi⟩

/-- The smallest rectangle containing the envelopes of every evaluated probe, none where the record
holds no envelope (R142). -/
def Evaluation.rect (e : Evaluation) : Option EnvelopeRect :=
  match e.envelopes with
  | [] => none
  | v :: vs => some (vs.foldl (fun p q => p.join q.rect) v.rect)

end Sys2Proof.Machine
end

