-- ==== Sys2Proof/Machine/Arbiter.lean ====
section
/-! DEFINITION. The Claim Arbiter (chapters 4 to 6): waits, the cycle test, grant, release, the grant
scan and the drain of a shift. -/

namespace Sys2Proof.Machine

open Sys2Proof

/-! ### Waits (R83) -/

/-- Party `y` owns a tile of a rectangle. -/
def State.ownsIn (s : State) (y : Party) (r : Rect) : Bool :=
  allTiles.any fun t => r.contains t && (s.tile t).owner == some y

/-- A claim of the queue with an arrival number below `a` whose rectangle shares a tile with `r`: an
earlier overlapping claim (R81, R83). -/
def Waiter.earlierOver (w : Waiter) (a : Nat) (r : Rect) : Bool :=
  decide (w.wait.arrival < a) && w.rect.overlaps r

/-- The parties that a claim of party `x` over `r` with arrival number `a` waits on, by ownership or by
precedence (R83). -/
def State.waitsOn (s : State) (x : Party) (r : Rect) (a : Nat) : PartySet :=
  PartySet.of fun y =>
    decide (y ≠ x) && (s.ownsIn y r || s.waiters.any fun w => w.name.party == y && w.earlierOver a r)

/-- The parties that the PENDING claim of a party waits on; a party without one waits on no one (R83). -/
def State.partyWaitsOn (s : State) (y : Party) : PartySet :=
  match s.pendingOf y with
  | some w => s.waitsOn y w.rect w.wait.arrival
  | none => ⟨false, false, false⟩

/-- The three parties. -/
def parties : List Party := [.A, .B, .C]

/-- The cycle test: the waits followed forward from a new claim of party `x` over `r`, taken as though
it stood at the tail of the queue, reach `x` (R85). -/
def State.closesCycle (s : State) (x : Party) (r : Rect) : Bool :=
  parties.any fun y =>
    (s.waitsOn x r s.nextArrival).has y &&
      ((s.partyWaitsOn y).has x ||
        parties.any fun z =>
          decide (z ≠ x) && decide (z ≠ y) && (s.partyWaitsOn y).has z && (s.partyWaitsOn z).has x)

/-! ### Grantable claims (R66, R87) -/

/-- A tile that a claim of party `p` can be granted: OPEN, and free or owned by `p` (R66). -/
def TileRecord.grantableTo (r : TileRecord) (p : Party) : Bool :=
  r.service == .opened && (r.owner == none || r.owner == some p)

/-- A claim of party `p` over `r` with arrival number `a` is grantable: every tile can be granted to `p`,
and no earlier claim overlaps it (R66, R87). -/
def State.grantable (s : State) (p : Party) (r : Rect) (a : Nat) : Bool :=
  (allTiles.all fun t => !r.contains t || (s.tile t).grantableTo p) &&
    !(s.waiters.any fun w => w.earlierOver a r)

/-! ### Release (R69) -/

/-- The release of the HELD or DRAINING claim in an ordinary slot: its tiles lose one hold, the links to
it are cleared, its slot becomes EMPTY. With it the number of tiles freed (R69). -/
def State.releaseSlot (s : State) (p : Party) (k : SlotNo) : State × Nat :=
  match (s.slot p k).heldRect with
  | none => (s, 0)
  | some r =>
    (((s.dropHolds r.contains).mapSlots p (Claim.unlink k)).setSlot p k .empty, s.freedBy r.contains)

/-- The tiles of an arm's trip claim, as a test. -/
def State.inTrip (s : State) (x : Arm) (t : Tile) : Bool := (s.tripTiles x).contains t

/-- The release of an arm's trip claim (R69, R77). -/
def State.releaseTrip (s : State) (x : Arm) : State × Nat :=
  ((s.dropHolds (s.inTrip x)).setTripTiles x [], s.freedBy (s.inTrip x))

/-! ### Grant (R67, R107, R109) -/

/-- The HELD source of an arm's granted shift target becomes DRAINING and names the target (R107). -/
def State.startDrain (s : State) (p : Party) (source target : SlotNo) : State :=
  match s.slot p source with
  | .held r _ => s.setSlot p source (.draining r target)
  | _ => s

/-- The grant of a claim: its tiles gain a hold of its party, it becomes HELD and has left the queue
(R67). Where it is a shift target, the source of an arm starts to drain (R107), and the source of
party C is released, with the number of tiles freed (R109). -/
def State.grant (s : State) (n : ClaimName) (r : Rect) (link : Option SlotNo) : State × Option Nat :=
  let s1 := ((s.addHolds n.party r.contains).dequeue n).setSlot n.party n.slot (.held r link)
  match link with
  | none => (s1, none)
  | some source =>
    match n.party with
    | .C => ((s1.releaseSlot .C source).1, some (s1.releaseSlot .C source).2)
    | .A => (s1.startDrain .A source n.slot, none)
    | .B => (s1.startDrain .B source n.slot, none)

/-! ### The grant scan (R88 to R90) -/

/-- One entry of a walk: granted with its GRANTED notice where it is grantable as it is reached. The flag
says that a grant of the walk brought about a release (R88 to R90). -/
def scanEntry (acc : State × Bool) (n : ClaimName) : State × Bool :=
  match acc.1.waiter n with
  | none => acc
  | some w =>
    if acc.1.grantable n.party w.rect w.wait.arrival then
      let g := acc.1.grant n w.rect w.link
      (g.1.raise n.party (.granted n.slot), acc.2 || g.2.isSome)
    else acc

/-- One pass of the grant scan over the queue as it stands when the pass begins (R88). -/
def State.scanPass (s : State) : State × Bool := s.queue.foldl scanEntry (s, false)

/-- Passes from the head until one brings about no release (R90). -/
def scanPasses : Nat → State → State
  | 0, s => s
  | n + 1, s => if s.scanPass.2 then scanPasses n s.scanPass.1 else s.scanPass.1

/-- The grant scan. A pass that brings about a release has granted an entry, so that there are at most
as many of them as entries (R88, R90). -/
def State.grantScan (s : State) : State := scanPasses (s.queue.length + 1) s

/-! ### Placing a claim (R64, R65) -/

/-- The lowest EMPTY slot of a party among 0..3 (R64). -/
def State.firstEmpty (s : State) (p : Party) : Option SlotNo :=
  slotNos.find? fun k => (s.slot p k).state == .empty

/-- The first BLOCKED or CLOSING tile of a rectangle in scan order (R65). -/
def State.firstProtected (s : State) (r : Rect) : Option Tile :=
  firstTile fun t => r.contains t && (s.tile t).service != .opened

/-- Check 2 of R62 and R102: an arm must be ARMING or LIVE; the refusal where it is not. -/
def State.standing (s : State) (p : Party) : Option Result :=
  match p.arm with
  | none => none
  | some x =>
    match s.guardState x with
    | .offline => some .notJoined
    | .tripped => some .armTripped
    | .arming => none
    | .live => none

/-! ### The OCCUPIED test and the drain test (R71, R110) -/

/-- The first tile in scan order that a release of the tiles that satisfy the test would free and that the
releasing arm's envelope touches; party C has no envelope (R71). -/
def State.occupiedTile (s : State) (p : Party) (f : Tile → Bool) : Option Tile :=
  match p.arm with
  | none => none
  | some x => firstTile fun t => f t && (s.tile t).lastHold && s.touches x t

/-- The drain test of a source over `r` and a target over `q`: the arm's envelope touches no tile of the
source outside the target (R110). -/
def State.drainPasses (s : State) (x : Arm) (r q : Rect) : Bool :=
  allTiles.all fun t => !(r.contains t && !q.contains t && s.touches x t)

/-- The DRAINING claim of a party with its rectangle and its target, if it has one (R103). -/
def State.drainOf (s : State) (p : Party) : Option (SlotNo × Rect × SlotNo) :=
  slotNos.findSome? fun k =>
    match s.slot p k with
    | .draining r t => some (k, r, t)
    | _ => none

/-- The drain test at an evaluation: where it passes, the source is released, SHIFT_DONE is raised with the
target slot, and a grant scan follows (R110, R111). -/
def State.drain (s : State) (x : Arm) : State :=
  match s.drainOf x.party with
  | none => s
  | some (k, r, t) =>
    match (s.slot x.party t).heldRect with
    | none => s
    | some q =>
      if s.drainPasses x r q then
        ((s.releaseSlot x.party k).1.raise x.party (.shiftDone t)).grantScan
      else s

end Sys2Proof.Machine
end

