-- ==== Sys2Proof/Machine/Trips.lean ====
section
/-! DEFINITION. The Guard Controllers (chapters 7 and 8): trips, the trip claim, contact and scope, the
trip record, the re-arming run and leaving for OFFLINE. -/

namespace Sys2Proof.Machine

open Sys2Proof

/-! ### The trip record (R141, R142) -/

/-- The trip record as step 1 of a trip writes it. `own` says that the cause is one of the arm's own, and
`tile` is the offending tile of an imposed cause (R142). -/
def State.tripRecord (s : State) (x : Arm) (cause : Cause) (own : Bool) (tile : Option Tile) : TripRecord :=
  let e := (s.arm x).evaluation
  let kind := if own then e.bind fun r => r.kind else none
  { cleared := false, cause := cause, kind := kind,
    tile := if own then e.bind fun r => r.tile else tile,
    rect := e.bind Evaluation.rect,
    count := e.map fun r => r.count,
    missed := (s.arm x).monitor.missed,
    speed := e.map fun r => match kind with
      | some k => r.speedOf k
      | none => r.maxSpeed,
    contested := false, secondBreach := false, tileCount := 0 }

/-- Change the trip record of a Guard Controller where it is valid. -/
def Guard.mapTrip (g : Guard) (f : TripRecord → TripRecord) : Guard := { g with trip := g.trip.map f }

/-! ### Steps 1 to 3 of a trip (R133, R135) -/

/-- Step 1: the guard state becomes TRIPPED, the permit falls, the clean count becomes 0, and the trip
record is written anew (R133). -/
def State.tripGuard (s : State) (x : Arm) (cause : Cause) (own : Bool) (tile : Option Tile) : State :=
  s.setGuard x
    { (s.arm x).guard with
      state := .tripped, permit := false, clean := 0, trip := some (s.tripRecord x cause own tile) }

/-- A tile that enters a trip claim of the arm: free and OPEN, or the arm's own (R135). -/
def TileRecord.takenBy (r : TileRecord) (x : Arm) : Bool :=
  match r.owner with
  | none => r.service == .opened
  | some p => p == x.party

/-- A tile that is contested for the arm: owned by another party (R135). -/
def TileRecord.contestedFor (r : TileRecord) (x : Arm) : Bool :=
  match r.owner with
  | none => false
  | some p => p != x.party

/-- Step 3: the trip claim is built in slot 4 from the cover of the trip envelope, and the record's
contested flag and tile count are written (R135). -/
def State.buildTripClaim (s : State) (x : Arm) : State :=
  let f := fun t => s.touches x t && (s.tile t).takenBy x
  let contested := allTiles.any fun t => s.touches x t && (s.tile t).contestedFor x
  let s1 := (s.addHolds x.party f).setTripTiles x (allTiles.filter f)
  s1.setGuard x ((s1.arm x).guard.mapTrip fun r => { r with contested := contested, tileCount := countTiles f })

/-- Steps 1 to 3 of a trip: permit and state, the pending claim, the trip claim (R133). -/
def State.tripBegin (s : State) (x : Arm) (cause : Cause) (own : Bool) (tile : Option Tile) : State :=
  ((s.tripGuard x cause own tile).cancelPending x.party .trip).buildTripClaim x

/-! ### Steps 4 to 7 (R133, R137 to R139, R145) -/

/-- The first covered tile of the arm that party C owns, in scan order (R138). -/
def State.intruded (s : State) (x : Arm) : Option Tile :=
  firstTile fun t => s.touches x t && (s.tile t).owner == some .C

/-- INTRUSION at the Cell Port where a contested tile is C's (R138). -/
def State.raiseIntrusion (s : State) (x : Arm) (tile : Option Tile) : State :=
  match tile with
  | some t => s.raise .C (.intrusion x t)
  | none => s

/-- Step 6: TRIPPED at the arm's port and ARM_TRIPPED at the Cell Port (R145). -/
def State.announceTrip (s : State) (x : Arm) (cause : Cause) : State :=
  (s.raise x.party (.tripped cause)).raise .C (.armTripped x)

/-- A trip with an imposed cause: HALT, contact or scope. It makes no contact judgement, and its own step 5
finds the other arm TRIPPED, or leaves it to the mode event (R137, R139, R140). -/
def State.tripImposed (s : State) (x : Arm) (cause : Cause) (tile : Option Tile) : State :=
  let s1 := s.tripBegin x cause false tile
  (s1.raiseIntrusion x (s1.intruded x)).announceTrip x cause

/-- The contact judgement: the contact cause for the other arm and, for FOREIGN_CONTACT, the first tile of
the trip cover that it owns (R137, R142). -/
def State.contact (s : State) (x : Arm) : Option (Cause × Option Tile) :=
  match (s.arm x).evaluation with
  | none => none
  | some e =>
    if e.farSide x then some (.farContact, none)
    else if e.foreign.has x.other.party then
      some (.foreignContact, firstTile fun t => e.covers t && (s.tile t).owner == some x.other.party)
    else none

/-- Step 4, contact: the other arm trips whatever TRIP_SCOPE is, if it is ARMING or LIVE (R137). -/
def State.contactTrip (s : State) (x : Arm) : State :=
  match s.contact x with
  | none => s
  | some (cause, tile) => if s.trippable x.other then s.tripImposed x.other cause tile else s

/-- Step 5: under PAIRED the other arm trips with the same cause, if it is still ARMING or LIVE (R139). -/
def State.scopeTrip (s : State) (x : Arm) (cause : Cause) : State :=
  if s.params.tripScope = .paired ∧ s.trippable x.other = true then s.tripImposed x.other cause none else s

/-- A trip with one of the arm's own causes, whole, with the one grant scan that ends it (R133). -/
def State.tripOwn (s : State) (x : Arm) (cause : Cause) : State :=
  let s1 := s.tripBegin x cause true none
  let s2 := (s1.contactTrip x).raiseIntrusion x (s1.intruded x)
  ((s2.scopeTrip x cause).announceTrip x cause).grantScan

/-! ### Evaluations handed to the Guard Controller (R39, R121, R122, R144) -/

/-- What started an evaluation: a fresh report, an expiry, or the expiry that makes the arm stale (R21). -/
inductive Start where
  | fresh | expiry | stale
deriving DecidableEq, Repr

/-- Every evaluated probe's speed is at most CREEP (R121). -/
def Evaluation.slow (e : Evaluation) (creep : Nat) : Bool := decide (e.maxSpeed ≤ creep)

/-- The re-arming run: a clean, slow evaluation of a fresh report raises the clean count, and at REARM_COUNT
the arm becomes LIVE with its permit on and LIVE raised; any other sets the count to 0 (R121, R122).
DESIGN CHOICE (log 28): with REARM_COUNT 1 a clean report makes the arm LIVE by R122 after an expiry too, where R130
has the arm stay ARMING at count 1. -/
def State.countClean (s : State) (x : Arm) (e : Evaluation) : State :=
  let a := s.params.arm x
  let g := (s.arm x).guard
  if e.result = none ∧ e.slow a.creep = true then
    if a.rearmCount ≤ g.clean + 1 then
      (s.setGuard x { g with state := .live, permit := true, clean := g.clean + 1 }).raise x.party (.live e.count)
    else s.setGuard x { g with clean := g.clean + 1 }
  else s.setGuard x { g with clean := 0 }

/-- The Guard Controller acts on an evaluation by the arm's state: the clean count in ARMING, a trip from
LIVE, the second-breach flag in TRIPPED (R39, R51, R144). -/
def State.guardActs (s : State) (x : Arm) (e : Evaluation) (st : Start) : State :=
  match s.guardState x with
  | .offline => s
  | .arming => if st = .fresh then s.countClean x e else s
  | .live =>
    if st = .stale then s.tripOwn x .stale
    else
      match e.result with
      | some c => s.tripOwn x c
      | none => s
  | .tripped =>
    if e.result.isSome then
      s.setGuard x ((s.arm x).guard.mapTrip fun r => { r with secondBreach := true })
    else s

/-- An evaluation of a report: the record is written, handed to the Guard Controller, and then to the Claim
Arbiter for the drain test, which an OVERSPEED evaluation does not carry (R39). A stored report has a TOOL record
in every case (R44); for one without, see log 20. -/
def State.evaluateReport (s : State) (x : Arm) (rep : Report) (m : Nat) (st : Start) : State :=
  match s.evaluate x rep m with
  | none => if st = .stale then s.tripOwn x .stale else s
  | some e =>
    let s1 := (s.setEvaluation x (some e)).guardActs x e st
    if e.result = some .overspeed then s1 else s1.drain x

/-! ### OFFLINE (R55, R124, R127, R128) -/

/-- The arm becomes OFFLINE: permit off, clean count 0, report-period timer stopped; the evaluation record, the
last report, the counts, the joined epoch and the trip record are kept (R55, R124, R127, R128). -/
def State.goOffline (s : State) (x : Arm) : State :=
  let u := s.arm x
  s.setArm x
    { u with
      monitor := { u.monitor with timer := none },
      guard := { u.guard with state := .offline, permit := false, clean := 0 } }

/-! ### Trips made by a mode event (R140, R152) -/

/-- Trip an arm with cause HALT if it is ARMING or LIVE (R140). -/
def State.haltArm (s : State) (x : Arm) : State :=
  if s.trippable x then s.tripImposed x .halt none else s

/-- The cell goes from GUARDING to HALTED: the mode, the cancellation of every PENDING claim, the trip of arm A
and then of arm B, one grant scan, and HALTED at all three ports (R97, R140, R152). -/
def State.haltCell (s : State) (src : HaltSource) : State :=
  let s1 := { s with mode := .halted }
  let s2 := ((s1.cancelPending .A .halt).cancelPending .B .halt).cancelPending .C .halt
  let s3 := ((s2.haltArm .A).haltArm .B).grantScan
  ((s3.raise .A (.halted src)).raise .B (.halted src)).raise .C (.halted src)

end Sys2Proof.Machine
end

