-- ==== Sys2Proof/Machine/Monitor.lean ====
section
/-! DEFINITION. The Report Monitors (chapter 3): acceptance of reports, the report-period timer, and the
passing of time. -/

namespace Sys2Proof.Machine

open Sys2Proof

/-- The outcome of the tests of R44. -/
inductive ReportOutcome where
  | emptyReport
  | refused (r : RefusedReason)
  | repeated
  | fresh
deriving DecidableEq, Repr

/-- The tests of R44 in their order: a report without probe records, a first record that is not TOOL, a missing
ELBOW where ELBOW_RADIUS is above 0, a count equal to the last count. -/
def reportOutcome (rep : Report) (elbowRadius : Nat) (lastCount : Option (BitVec 4)) : ReportOutcome :=
  match rep.probes with
  | [] => .emptyReport
  | q :: more =>
    if q.guarded ≠ some .tool then .refused .firstNotTool
    else if 0 < elbowRadius ∧ (more.head?.bind Probe.guarded) ≠ some .elbow then .refused .elbowMissing
    else if lastCount = some rep.count then .repeated
    else .fresh

/-- A fresh report: stored while OFFLINE (R47); otherwise stored, the missed count 0, the timer restarted, and
evaluated with m = 0 (R48). -/
def State.freshReport (s : State) (x : Arm) (rep : Report) : State :=
  let m := (s.arm x).monitor
  if s.guardState x = .offline then
    s.setMonitor x { m with lastReport := some rep, lastCount := some rep.count }
  else
    (s.setMonitor x
      { lastReport := some rep, lastCount := some rep.count, missed := 0,
        timer := some (s.params.arm x).reportPeriod }).evaluateReport x rep 0 .fresh

/-- A report that reaches the Report Monitor (R44, R45). -/
def State.armReport (s : State) (x : Arm) (rep : Report) : State :=
  match reportOutcome rep (s.params.arm x).elbowRadius (s.arm x).monitor.lastCount with
  | .emptyReport => s
  | .refused r => s.raise x.party (.reportRefused r rep.count)
  | .repeated => s
  | .fresh => s.freshReport x rep

/-- The report section of a request, taken before its command section (R43). A request without one leaves the
Report Monitor as it was, and the Cell Port has none. -/
def State.takeReport (s : State) (p : Party) (rep : Option Report) : State :=
  match p.arm, rep with
  | some x, some r => s.armReport x r
  | _, _ => s

/-- The state on which the command section of a request in processing acts: that which its report section leaves, or the
state as it stands where the report section has been taken before (R163 steps 2 and 3; log 27). -/
def State.afterReport (s : State) (p : Party) (rep : Option Report) : State :=
  if (s.port p).reported then s else s.takeReport p rep

/-- The missed count after an expiry: raised by 1 up to STALE_LIMIT + 1, where it holds (R50). -/
def raisedMissed (missed staleLimit : Nat) : Nat := if staleLimit < missed then missed else missed + 1

/-- The evaluation of the last report that an expiry starts, if a last report is present (R50). -/
def State.evaluateLast (s : State) (x : Arm) : State :=
  match (s.arm x).monitor.lastReport with
  | none => s
  | some rep => s.evaluateReport x rep (s.arm x).monitor.missed .expiry

/-- An expiry in ARMING, handed to the Guard Controller as such: the clean count becomes 0 (R121). -/
def State.expiryInArming (s : State) (x : Arm) : State :=
  if s.guardState x = .arming then s.setGuard x { (s.arm x).guard with clean := 0 } else s

/-- The stale evaluation of a LIVE arm's last report with the STALE condition (R51). A LIVE arm has a last report
in every case (R50); without one the arm would trip on its record as it stands (log 20). -/
def State.staleExpiry (s : State) (x : Arm) : State :=
  if s.guardState x = .live then
    match (s.arm x).monitor.lastReport with
    | none => s.tripOwn x .stale
    | some rep => s.evaluateReport x rep (s.arm x).monitor.missed .stale
  else s

/-- An expiry of a running report-period timer: the missed count rises or holds, the timer restarts, and an
evaluation or the stale evaluation follows (R50 to R52). -/
def State.periodExpiry (s : State) (x : Arm) : State :=
  let m := (s.arm x).monitor
  let limit := (s.params.arm x).staleLimit
  let missed := raisedMissed m.missed limit
  let s1 := (s.setMonitor x { m with missed := missed, timer := some (s.params.arm x).reportPeriod }).expiryInArming x
  if missed ≤ limit then s1.evaluateLast x
  else if m.missed = limit then s1.staleExpiry x
  else s1

/-! ### The passing of time (R49, R91; log 6) -/

/-- A timer after `n` microseconds; it stands at 0 until its expiry is taken. -/
def Monitor.elapse (m : Monitor) (n : Nat) : Monitor := { m with timer := m.timer.map fun t => t - n }

/-- A waiting claim's age after `n` microseconds (R91). -/
def Claim.elapse (n : Nat) : Claim → Claim
  | .pending r w l => .pending r { w with age := w.age + n } l
  | .empty => .empty
  | .held r l => .held r l
  | .draining r l => .draining r l

/-- `n` microseconds pass on the part's own time base. -/
def State.elapse (s : State) (n : Nat) : State :=
  { s with
    armA := { s.armA with monitor := s.armA.monitor.elapse n },
    armB := { s.armB with monitor := s.armB.monitor.elapse n },
    claims :=
      { s.claims with
        a := s.claims.a.map (Claim.elapse n), b := s.claims.b.map (Claim.elapse n),
        c := s.claims.c.map (Claim.elapse n) } }

/-- A wait age in microseconds as READ_CLAIMS and READ_QUEUE give it: whole ms rounded down, 65,535 once it
reaches that value (R91). -/
def ageMs (age : Nat) : Nat := min (age / 1000) 65535

end Sys2Proof.Machine
end

