-- ==== Sys2Proof/Machine/Reply.lean ====
section
/-! DEFINITION. The bytes of a reply (R166), which an exchange shifts out (R161, R162). -/

namespace Sys2Proof.Machine

open Sys2Proof

/-! ### Codes (R166, R168) -/

/-- The code of a result (R168). -/
def Result.code : Result → Nat
  | .done => 0
  | .queued => 1
  | .granted => 2
  | .closing => 3
  | .clamped => 4
  | .badFrame => 16
  | .badCheck => 17
  | .badKind => 18
  | .wrongMode => 19
  | .notJoined => 20
  | .staleGeometry => 21
  | .badRect => 22
  | .protected_ => 23
  | .tableFull => 24
  | .pendingExists => 25
  | .cycle => 26
  | .noSuchClaim => 27
  | .occupied => 28
  | .notShiftable => 29
  | .armTripped => 30
  | .causeActive => 31
  | .holding => 32
  | .notTripped => 33
  | .badParam => 34

/-- The code of an evaluation or trip cause (R166). -/
def Cause.code : Cause → Nat
  | .overspeed => 1
  | .farSide => 2
  | .foreign => 3
  | .blocked => 4
  | .unclaimed => 5
  | .zoneSpeed => 6
  | .stale => 7
  | .halt => 8
  | .foreignContact => 9
  | .farContact => 10

/-- The code of an evaluation result: 0 CLEAR (R166). -/
def resultCode (r : Option Cause) : Nat :=
  match r with
  | none => 0
  | some c => c.code

/-- The code of a probe result: 15 for a probe not tested (R166). -/
def ProbeResult.code : ProbeResult → Nat
  | .clear => 0
  | .breach c => c.code
  | .notTested => 15

/-- 1 TOOL, 2 ELBOW (R166). -/
def ProbeKind.code : ProbeKind → Nat
  | .tool => 1
  | .elbow => 2

/-- 0 OFFLINE, 1 ARMING, 2 LIVE, 3 TRIPPED (R166). -/
def GuardState.code : GuardState → Nat
  | .offline => 0
  | .arming => 1
  | .live => 2
  | .tripped => 3

/-- 0 EMPTY, 1 PENDING, 2 HELD, 3 DRAINING (R166). -/
def SlotState.code : SlotState → Nat
  | .empty => 0
  | .pending => 1
  | .held => 2
  | .draining => 3

/-- 0 SETUP, 1 GUARDING, 2 HALTED (R166). -/
def Mode.code : Mode → Nat
  | .setup => 0
  | .guarding => 1
  | .halted => 2

/-- 0 OPEN, 1 BLOCKED, 2 CLOSING (R166). -/
def Service.code : Service → Nat
  | .opened => 0
  | .blocked => 1
  | .closing => 2

/-- 0 A, 1 B, 2 C (R166). -/
def partyCode : Party → Nat
  | .A => 0
  | .B => 1
  | .C => 2

/-- 0 A, 1 B, 2 C, 3 NONE (R166). -/
def ownerCode (o : Option Party) : Nat :=
  match o with
  | none => 3
  | some p => partyCode p

/-- 0 TRIP, 1 EVICT, 2 HALT (R166). -/
def CancelCause.code : CancelCause → Nat
  | .trip => 0
  | .evict => 1
  | .halt => 2

/-- 0 REQUEST, 1 LINE, in the order R169 lists them (log 15). -/
def HaltSource.code : HaltSource → Nat
  | .request => 0
  | .line => 1

/-- 0 FIRST_NOT_TOOL, 1 ELBOW_MISSING, in the order R44 lists them (R166; log 15). -/
def RefusedReason.code : RefusedReason → Nat
  | .firstNotTool => 0
  | .elbowMissing => 1

/-- 0 DRAINING, 1 RELEASED, in the order R105 lists them (log 15). -/
def SourceOutcome.code : SourceOutcome → Nat
  | .draining => 0
  | .released => 1

/-! ### Items (R166) -/

/-- A one-byte item. -/
def byte (n : Nat) : Byte := BitVec.ofNat 8 n

/-- A flag: 1 when set, 0 when clear. -/
def flag (b : Bool) : Byte := if b then 1 else 0

/-- A two-byte item, most significant byte first. -/
def bytes2 (n : Nat) : List Byte := [byte (n / 256), byte n]

/-- A signed four-byte item, most significant byte first. -/
def bytes4 (i : Int) : List Byte :=
  let w := BitVec.ofInt 32 i
  [w.extractLsb' 24 8, w.extractLsb' 16 8, w.extractLsb' 8 8, w.extractLsb' 0 8]

/-- An item that may be absent: a presence byte, then the item in its full width `n`, whose bytes are 0 when it
is absent. -/
def optional {α : Type} (n : Nat) (o : Option α) (f : α → List Byte) : List Byte :=
  match o with
  | some a => 1 :: f a
  | none => 0 :: List.replicate n 0

/-- A list of items whose length varies: a one-byte count, then the items. -/
def counted {α : Type} (l : List α) (f : α → List Byte) : List Byte := byte l.length :: l.flatMap f

/-- A tile: column, then row. -/
def Tile.bytes (t : Tile) : List Byte := [byte t.col.val, byte t.row.val]

/-- A rectangle: col0, col1, row0, row1. -/
def Rect.bytes (r : Rect) : List Byte := [byte r.col0, byte r.col1, byte r.row0, byte r.row1]

/-- A set of parties: bit 0 for A, bit 1 for B, bit 2 for C. -/
def PartySet.byte (ps : PartySet) : Byte :=
  Machine.byte ((if ps.a then 1 else 0) + (if ps.b then 2 else 0) + (if ps.c then 4 else 0))

/-- A tile record of READ_ROW: service, speed class, owner, hold count (R20). -/
def TileRecord.bytes (r : TileRecord) : List Byte :=
  [byte r.service.code, byte r.speedClass.val, byte (ownerCode r.owner), byte r.hold]

/-- The detail items of a notice, in the order R169 lists them. -/
def Notice.detail : Notice → List Byte
  | .granted k => [byte k.val]
  | .expired k => [byte k.val]
  | .withdrawn k t => byte k.val :: t.bytes
  | .cancelled k c => [byte k.val, byte c.code]
  | .yield p k => [byte (partyCode p), byte k.val]
  | .shiftDone k => [byte k.val]
  | .live c => [byte c.toNat]
  | .tripped c => [byte c.code]
  | .evicted g => [byte g.code]
  | .stopped m => [byte m.code]
  | .halted src => [byte src.code]
  | .portFault => [0]
  | .reportRefused r c => [byte r.code, byte c.toNat]
  | .armTripped x => [byte (partyCode x.party)]
  | .intrusion x t => byte (partyCode x.party) :: t.bytes
  | .blockDone => []
  | .haltLine m => [byte m.code]

/-- An attention entry of 4 bytes: the kind code, then the detail followed by bytes of 0 up to 3 (R166). -/
def Notice.bytes (n : Notice) : List Byte := byte n.code :: (n.detail ++ [0, 0, 0]).take 3

/-! ### Payloads -/

/-- A slot of READ_CLAIMS (R79; the grouping of the trip claim's item is log 13). -/
def ClaimView.bytes (v : ClaimView) : List Byte :=
  byte v.state.code ::
    (optional 1 v.trip (fun b => [flag b]) ++ optional 4 v.rect Rect.bytes ++
      optional 5 v.tiles (fun q => byte q.1 :: q.2.bytes) ++ optional 1 v.position (fun n => [byte n]) ++
      optional 2 v.waitAge bytes2 ++ optional 1 v.asked (fun b => [flag b]) ++
      optional 1 v.link (fun k => [byte k.val]))

/-- An entry of READ_QUEUE (R101). -/
def QueueView.bytes (v : QueueView) : List Byte :=
  [byte (partyCode v.name.party), byte v.name.slot.val] ++ v.rect.bytes ++
    optional 1 v.source (fun k => [byte k.val]) ++ bytes2 v.waitAge ++ [flag v.asked, v.waitsOn.byte]

/-- The envelope fields of a probe entry (R37). -/
def Envelope.bytes (e : Envelope) : List Byte :=
  bytes4 e.xLo ++ bytes4 e.xHi ++ bytes4 e.yLo ++ bytes4 e.yHi ++
    optional 2 e.cols (fun c => [byte c.1, byte c.2]) ++ [byte e.rows.1, byte e.rows.2, flag e.west, flag e.east]

/-- A probe entry: 30 bytes (R37; log 13). -/
def ProbeEntry.bytes (e : ProbeEntry) : List Byte :=
  bytes2 e.speed ++ [byte e.result.code] ++ optional 2 e.tile Tile.bytes ++ optional 23 e.envelope Envelope.bytes

/-- The evaluation record: 71 bytes (R37; log 13). -/
def Evaluation.bytes (e : Evaluation) : List Byte :=
  [byte e.count.toNat, byte e.missed, byte (resultCode e.result)] ++
    optional 1 e.kind (fun k => [byte k.code]) ++ optional 2 e.tile Tile.bytes ++
    [e.foreign.byte, flag e.retained] ++ e.tool.bytes ++ optional 30 e.elbow ProbeEntry.bytes

/-- What READ_ARM gives (R167). The bytes of an absent stored report are log 14. -/
def ArmView.bytes (v : ArmView) : List Byte :=
  byte v.state.code ::
    (optional 1 v.joined (fun e => [e]) ++ optional 19 v.lastReport Report.bytes ++
      optional 1 v.lastCount (fun c => [byte c.toNat]) ++ [byte v.missed] ++
      optional 71 v.evaluation Evaluation.bytes ++ [byte v.tripTiles])

/-- A trip record: the valid flag alone when it is invalid, else every field (R141, R143). -/
def tripBytes (r : Option TripRecord) : List Byte :=
  match r with
  | none => [0]
  | some t =>
    [1, flag t.cleared, byte t.cause.code] ++ optional 1 t.kind (fun k => [byte k.code]) ++
      optional 2 t.tile Tile.bytes ++
      optional 16 t.rect (fun e => bytes4 e.xLo ++ bytes4 e.xHi ++ bytes4 e.yLo ++ bytes4 e.yHi) ++
      optional 1 t.count (fun c => [byte c.toNat]) ++ [byte t.missed] ++ optional 2 t.speed bytes2 ++
      [flag t.contested, flag t.secondBreach, byte t.tileCount]

/-- The items of a payload in the order of the owning rule (R166). -/
def Payload.bytes : Payload → List Byte
  | .empty => []
  | .removed codes => counted codes fun n => [byte n]
  | .row recs => counted recs TileRecord.bytes
  | .rowWritten w k => [byte w, byte k]
  | .blocked c b => [byte c, byte b]
  | .unblocked n => [byte n]
  | .claimGranted k r => byte k.val :: r.bytes
  | .claimQueued k r w => byte k.val :: (r.bytes ++ [w.byte])
  | .tile t => t.bytes
  | .shiftQueued t src r w => byte t.val :: byte src.val :: (r.bytes ++ [w.byte])
  | .shiftGranted t src r o n => byte t.val :: byte src.val :: (r.bytes ++ [byte o.code, byte n])
  | .released k b n => [byte k, byte b.code, byte n]
  | .claims slots => counted slots ClaimView.bytes
  | .queue entries => counted entries QueueView.bytes
  | .joined e g => [e.getD 0, byte g.code]
  | .left g => [byte g.code]
  | .holdingSlot k => [byte k]
  | .tripCleared c => [byte (resultCode c)]
  | .holdingTiles n => [byte n]
  | .trip r => tripBytes r
  | .evicted x g c f => [byte (partyCode x.party), byte g.code, byte c, byte f]
  | .param ident v => ident :: bytes2 v
  | .started e => [e]
  | .stopped m c b => [byte m.code, byte c, byte b]
  | .halted n arms => [byte n, arms.byte]
  | .arm v => v.bytes

/-! ### Replies (R166) -/

/-- The marks byte: exception in bit 0, NORMALIZED in bit 1, halt-line level in bit 2. -/
def ReplyBody.marks (b : ReplyBody) : Byte :=
  byte ((if b.exception then 1 else 0) + (if b.normalized then 2 else 0) + (if b.lineAsserted then 4 else 0))

/-- The status block of a reply. -/
def StatusBlock.bytes : StatusBlock → List Byte
  | .arm g p c m slots =>
    [byte g.code, flag p, byte c, byte m] ++ slots.map fun st => byte st.code
  | .cell ga gb pa pb slots n =>
    [byte ga.code, byte gb.code, byte ((if pa then 1 else 0) + (if pb then 2 else 0))] ++
      (slots.map fun st => byte st.code) ++ [byte n]

/-- The bytes of a reply between its length and its check byte. -/
def ReplyBody.bytes (b : ReplyBody) : List Byte :=
  [((0 : BitVec 4) ++ b.tag : Byte), b.kind, byte b.result.code, b.marks, byte b.mode.code, b.epoch] ++
    b.status.bytes ++ counted b.attention Notice.bytes ++ counted b.payload.bytes fun x => [x]

/-- A reply from its kind and its fields: the length counts every byte, and the check byte makes the XOR of all of
them 0. -/
def framedReply (kind : Byte) (fields : List Byte) : List Byte :=
  let head := kind :: byte (fields.length + 3) :: fields
  head ++ [xorAll head]

/-- The bytes of the reply in the buffer: kind 0 NORMAL, 2 RESTARTED. -/
def Reply.bytes : Reply → List Byte
  | .normal b => framedReply 0 b.bytes
  | .restarted b => framedReply 2 b.bytes

/-- A NOT_READY reply: five bytes, with the tag and kind of the request in processing (R164, R166). -/
def notReady (f : Frame) : List Byte := framedReply 1 [(0 : BitVec 4) ++ f.tag, f.kindByte]

/-! ### Shifting out (R161) -/

/-- The first `n` bits of a byte, most significant first. -/
def topBits (n : Nat) (b : Byte) : List Bool := (List.range n).map fun i => b.getLsbD (7 - i)

/-- What the port shifts out while the frame `f` is clocked in: one byte of the data for each byte clocked, bytes of
value 0 once the data are exhausted, and the first bits of the next byte where the last byte was not finished. -/
def shiftOut (data : List Byte) (f : Frame) : Frame :=
  let all := data ++ List.replicate (f.bytes.length + 1) 0
  ⟨all.take f.bytes.length, topBits f.extra.length (all.getD f.bytes.length 0)⟩

end Sys2Proof.Machine
end

