-- ==== Sys2Proof/Machine/Exchanges.lean ====
section
/-! DEFINITION. The commands of the port units (chapter 10): the end of an exchange, an overrun, a refusal at
the frame checks, NOP and ACK; and the processing of a taken request that every request shares. -/

namespace Sys2Proof.Machine

open Sys2Proof

/-- What a command of the part answers: the next state, always. -/
abbrev Answered := Host.Outcome State Fault Refusal

/-- The processing of a request completes: its report is taken where it has not been taken yet, its command section acts,
and its reply is placed (R163). It happens where the port has taken that very request; where it has not, there is nothing
to process and nothing changes (log 5). Where an idle step has taken the report section before (`State.takeSection`),
events of other sources may have come since (R163): the reply to a request whose report made the arm LIVE shows LIVE
(R122) unless a HALT, a STOP or a contact came in between, and then no reply shows it (R130). DESIGN CHOICE (log 27): no
event comes between the command section and the reply. -/
def serve (c : Instr) (command : State → State × Answer) (s : State) : Answered :=
  match c.request with
  | none => .next s
  | some q =>
    if s.taken q.port c then
      let r := command (s.afterReport q.port q.rep)
      .next (r.1.placeReply q.port q.tag q.kind r.2)
    else .next s

/-- An answer that changes nothing. -/
def refuse (s : State) (r : Result) : State × Answer := (s, ⟨r, false, .empty⟩)

/-! ### Exchanges (R161 to R165) -/

/-- Record what a port shifted out. -/
def State.shifts (s : State) (p : Party) (f : Frame) : State :=
  s.setPort p { s.port p with shifted := f }

/-- The `n` bytes shifted out while the part is held, from the free values not used before (R156; log 3). -/
def State.heldBytes (s : State) (n : Nat) : List Byte :=
  (List.range n).map fun i => Config.heldByte (s.freeCount + i)

/-- EXCHANGE_END: the exchange shifted out the reply buffer; its request is taken and the request-in-processing
flag is set (R163). An empty exchange is not taken (R161), and an exchange made while the part is held in reset is
not taken and shifts out data that carry no meaning (R156). With a request in processing the exchange would be an
overrun, so this event does not happen (log 5). DESIGN CHOICE (log 29): an exchange counts as made while held by the state
in which its end stands, so that one which begins while the part is held and ends after it is taken whole; R156 does not
say. One that RST_N cuts is abandoned and has no such event (R156). -/
def execExchangeEnd (p : Party) (f : Frame) (s : State) : Answered :=
  if s.held then
    .next
      { s.shifts p (shiftOut (s.heldBytes (f.bytes.length + 1)) f) with
        freeCount := s.freeCount + (f.bytes.length + 1) }
  else if (s.port p).processing.isSome then .next s
  else
    let s1 := s.shifts p (shiftOut (s.port p).reply.bytes f)
    if f.bytes = [] ∧ f.extra = [] then .next s1
    else .next (s1.setPort p { s1.port p with processing := some f, reported := false })

/-- OVERRUN: NOT_READY is shifted out in place of the reply buffer, the request clocked is discarded unchecked, and
PORT_FAULT is raised; the request in processing is not disturbed (R164). Without a request in processing the
exchange would be an ordinary one, so this event does not happen (log 5). DESIGN CHOICE (log 31): PORT_FAULT is raised
while that request is in processing, before its reply is placed, so that this reply shows it, also where the exchange
outlasts the processing; R164 names the end of the exchange for the discard and no moment for the notice. -/
def execOverrun (p : Party) (f : Frame) (s : State) : Answered :=
  match (s.port p).processing with
  | none => .next s
  | some g => .next ((s.shifts p (shiftOut (notReady g) f)).raise p .portFault)

/-- The result code of a refusal at the frame checks (R165). -/
def frameResult : FrameRefusal → Result
  | .badFrame => .badFrame
  | .badCheck => .badCheck
  | .badKind => .badKind

/-- FRAME_CHECK_REFUSAL: a taken request that fails a frame check is discarded whole, its report with it, and its
reply carries the refusal code with the kind and tag as received (R165). Where no such request is in processing this
event does not happen (log 5). -/
def execFrameCheckRefusal (p : Party) (s : State) : Answered :=
  match (s.port p).processing with
  | none => .next s
  | some f =>
    match decodeFrame p f with
    | .accepted _ => .next s
    | .refused r => .next (s.placeReply p f.tag f.kindByte ⟨frameResult r, false, .empty⟩)

/-! ### NOP and ACK -/

/-- NOP is accepted in every mode and changes nothing; its reply is DONE (R167). -/
def execNop (p : Party) (tag : BitVec 4) (rep : Option Report) (s : State) : Answered :=
  serve (.nop p tag rep) (fun s1 => (s1, ⟨.done, false, .empty⟩)) s

/-- The codes of the kinds of a port's set that an ACK removes, ascending (R170). -/
def Port.removedBy (q : Port) (codes : List Byte) : List Nat :=
  (q.attention.filter fun n => n.listed codes).map Notice.code

/-- ACK removes each listed kind that is present in the port's set and answers the kinds removed (R170). -/
def ackRequest (p : Party) (codes : List Byte) (s : State) : State × Answer :=
  (s.setPort p ((s.port p).acknowledge codes), ⟨.done, false, .removed ((s.port p).removedBy codes)⟩)

/-- ACK (R170). -/
def execAck (p : Party) (tag : BitVec 4) (rep : Option Report) (codes : List Byte) (s : State) : Answered :=
  serve (.ack p tag rep codes) (ackRequest p codes) s

end Sys2Proof.Machine
end

