-- ==== Sys2Proof/Machine/Arms.lean ====
section
/-! DEFINITION. The requests to a Guard Controller (chapters 7 and 8): JOIN, LEAVE, CLEAR_TRIP, EVICT, READ_TRIP and
READ_ARM. -/

namespace Sys2Proof.Machine

open Sys2Proof

/-! ### JOIN (R120) -/

/-- The arm joins: ARMING, clean count 0, the current epoch; the Report Monitor is set by R54 and the evaluation record
becomes absent (R38, R120). -/
def State.joins (s : State) (x : Arm) : State :=
  s.setArm x
    { monitor := ⟨none, none, 0, some (s.params.arm x).reportPeriod⟩, evaluation := none,
      guard := { (s.arm x).guard with state := .arming, permit := false, clean := 0, joined := some s.epoch } }

/-- JOIN: the conditions of R120 in their order. DESIGN CHOICE (log 30): the guard state that the arm had "before the
request", in the payload, is the one in which the command section finds it, after the request's own report; R120 does
not say which of the two is meant where that report makes the arm LIVE or trips it. -/
def joinRequest (x : Arm) (epoch : Byte) (s : State) : State × Answer :=
  if s.mode ≠ .guarding then refuse s .wrongMode
  else if s.guardState x ≠ .offline then
    (s, ⟨.done, false, .joined (s.arm x).guard.joined (s.guardState x)⟩)
  else if epoch ≠ s.epoch then refuse s .staleGeometry
  else (s.joins x, ⟨.done, false, .joined (some s.epoch) .offline⟩)

/-- JOIN (R120). -/
def execJoin (x : Arm) (tag : BitVec 4) (rep : Option Report) (epoch : Byte) (s : State) : Answered :=
  serve (.join x tag rep epoch) (joinRequest x epoch) s

/-! ### LEAVE (R124) -/

/-- The lowest slot of an arm, 0..4, that is not EMPTY (R124). -/
def State.firstHolding (s : State) (x : Arm) : Option Nat :=
  match slotNos.find? fun k => (s.slot x.party k).state != .empty with
  | some k => some k.val
  | none => if s.tripTiles x = [] then none else some 4

/-- LEAVE, by the arm's guard state (R124). DESIGN CHOICE (log 30): the guard state that the arm had "before the
request", in the payload, is the one in which the command section finds it, after the request's own report; R124 does not
say which of the two is meant where that report has just made the arm LIVE. -/
def leaveRequest (x : Arm) (s : State) : State × Answer :=
  match s.guardState x with
  | .offline => (s, ⟨.done, false, .left .offline⟩)
  | .tripped => refuse s .armTripped
  | g =>
    match s.firstHolding x with
    | some k => (s, ⟨.holding, false, .holdingSlot k⟩)
    | none => (s.goOffline x, ⟨.done, false, .left g⟩)

/-- LEAVE (R124). -/
def execLeave (x : Arm) (tag : BitVec 4) (rep : Option Report) (s : State) : Answered :=
  serve (.leave x tag rep) (leaveRequest x) s

/-! ### CLEAR_TRIP (R125) -/

/-- CLEAR_TRIP: the conditions of R125 in their order. -/
def clearTripRequest (x : Arm) (s : State) : State × Answer :=
  if s.mode ≠ .guarding then refuse s .wrongMode
  else if s.guardState x ≠ .tripped then refuse s .notTripped
  else if s.tripTiles x ≠ [] then (s, ⟨.holding, false, .holdingTiles (s.tripTiles x).length⟩)
  else
    let g := (s.arm x).guard
    (s.setGuard x { g.mapTrip (fun r => { r with cleared := true }) with state := .arming, permit := false, clean := 0 },
      ⟨.done, false, .tripCleared (g.trip.map fun r => r.cause)⟩)

/-- CLEAR_TRIP (R125). -/
def execClearTrip (x : Arm) (tag : BitVec 4) (rep : Option Report) (s : State) : Answered :=
  serve (.clearTrip x tag rep) (clearTripRequest x) s

/-! ### EVICT (R96, R126, R127) -/

/-- Release the claim of a slot where it is HELD or DRAINING, adding up the claims released and the tiles freed. -/
def evictSlot (p : Party) (acc : State × Nat × Nat) (k : SlotNo) : State × Nat × Nat :=
  match (acc.1.slot p k).heldRect with
  | none => acc
  | some _ => ((acc.1.releaseSlot p k).1, acc.2.1 + 1, acc.2.2 + (acc.1.releaseSlot p k).2)

/-- Release the trip claim of an arm where it holds one, adding up likewise. -/
def evictTrip (x : Arm) (acc : State × Nat × Nat) : State × Nat × Nat :=
  if acc.1.tripTiles x = [] then acc
  else ((acc.1.releaseTrip x).1, acc.2.1 + 1, acc.2.2 + (acc.1.releaseTrip x).2)

/-- The claims of an evicted arm: its PENDING claim cancelled with cause EVICT, then every HELD and DRAINING claim
released without the OCCUPIED test. With it the claims cancelled or released and the tiles freed (R96). -/
def State.evictClaims (s : State) (x : Arm) : State × Nat × Nat :=
  let n := if (s.pendingOf x.party).isSome then 1 else 0
  evictTrip x (slotNos.foldl (evictSlot x.party) (s.cancelPending x.party .evict, n, 0))

/-- An eviction whole: claims with one grant scan, OFFLINE, EVICTED (R127). -/
def State.evicts (s : State) (x : Arm) : State × Answer :=
  let before := s.guardState x
  let e := s.evictClaims x
  ((e.1.grantScan.goOffline x).raise x.party (.evicted before), ⟨.done, false, .evicted x before e.2.1 e.2.2⟩)

/-- EVICT: an arm code other than A or B is refused BAD_FRAME; a LIVE or OFFLINE arm is refused NOT_TRIPPED (R126). -/
def evictRequest (arm : Byte) (s : State) : State × Answer :=
  match armOfCode arm with
  | none => refuse s .badFrame
  | some x =>
    match s.guardState x with
    | .live => refuse s .notTripped
    | .offline => refuse s .notTripped
    | .arming => s.evicts x
    | .tripped => s.evicts x

/-- EVICT (R127). -/
def execEvict (tag : BitVec 4) (arm : Byte) (s : State) : Answered := serve (.evict tag arm) (evictRequest arm) s

/-! ### READ_TRIP (R143) and READ_ARM (R167) -/

/-- READ_TRIP: the port's own arm at an Arm Port, the arm named at the Cell Port, where any other code is refused
BAD_FRAME (R143). -/
def readTripRequest (p : Party) (arm : Option Byte) (s : State) : State × Answer :=
  match p.arm, arm.bind armOfCode with
  | some x, _ => (s, ⟨.done, false, .trip (s.arm x).guard.trip⟩)
  | none, some x => (s, ⟨.done, false, .trip (s.arm x).guard.trip⟩)
  | none, none => refuse s .badFrame

/-- READ_TRIP (R143). -/
def execReadTrip (p : Party) (tag : BitVec 4) (rep : Option Report) (arm : Option Byte) (s : State) : Answered :=
  serve (.readTrip p tag rep arm) (readTripRequest p arm) s

/-- What READ_ARM gives of an arm (R167). -/
def State.viewArm (s : State) (x : Arm) : ArmView :=
  let u := s.arm x
  { state := u.guard.state, joined := u.guard.joined, lastReport := u.monitor.lastReport,
    lastCount := u.monitor.lastCount, missed := u.monitor.missed, evaluation := u.evaluation,
    tripTiles := (s.tripTiles x).length }

/-- READ_ARM: an arm code other than A or B is refused BAD_FRAME (R167). -/
def readArmRequest (arm : Byte) (s : State) : State × Answer :=
  match armOfCode arm with
  | none => refuse s .badFrame
  | some x => (s, ⟨.done, false, .arm (s.viewArm x)⟩)

/-- READ_ARM (R167). -/
def execReadArm (tag : BitVec 4) (arm : Byte) (s : State) : Answered :=
  serve (.readArm tag arm) (readArmRequest arm) s

end Sys2Proof.Machine
end

