-- ==== Sys2Proof/Machine/Claims.lean ====
section
/-! DEFINITION. The requests over the claim table and the queue (chapters 4 to 6): CLAIM, SHIFT, RELEASE, READ_CLAIMS
and READ_QUEUE. -/

namespace Sys2Proof.Machine

open Sys2Proof

/-! ### CLAIM (R62 to R68) -/

/-- A CLAIM past checks 1 to 5 and its choice of slot `k`: check 6, then granted at once, refused CYCLE, or queued
(R65, R66). -/
def placeClaim (s : State) (p : Party) (k : SlotNo) (r : Rect) (swapped : Bool) : State × Answer :=
  match s.firstProtected r with
  | some t => (s, ⟨.protected_, false, .tile t⟩)
  | none =>
    if s.grantable p r s.nextArrival then
      ((s.grant ⟨p, k⟩ r none).1, ⟨.granted, swapped, .claimGranted k r⟩)
    else if s.closesCycle p r then refuse s .cycle
    else (s.enqueue p k r none, ⟨.queued, swapped, .claimQueued k r (s.waitsOn p r s.nextArrival)⟩)

/-- CLAIM: the checks of R62 in their order. -/
def claimRequest (p : Party) (c0 c1 r0 r1 : Byte) (s : State) : State × Answer :=
  if s.mode ≠ .guarding then refuse s .wrongMode
  else
    match s.standing p with
    | some code => refuse s code
    | none =>
      match s.params.rect c0 c1 r0 r1 with
      | none => refuse s .badRect
      | some (r, swapped) =>
        if (s.pendingOf p).isSome then refuse s .pendingExists
        else
          match s.firstEmpty p with
          | none => refuse s .tableFull
          | some k => placeClaim s p k r swapped

/-- CLAIM (R62). -/
def execClaim (p : Party) (tag : BitVec 4) (rep : Option Report) (col0 col1 row0 row1 : Byte) (s : State) : Answered :=
  serve (.claim p tag rep col0 col1 row0 row1) (claimRequest p col0 col1 row0 row1) s

/-! ### SHIFT (R102 to R109) -/

/-- Checks 3 and 4 of R102 on the source slot: the shiftable source, or the refusal (R103). -/
def State.shiftSource (s : State) (p : Party) (source : Byte) : Except Result SlotNo :=
  match slotOfByte source with
  | none => if source.toNat = 4 ∧ p ≠ .C then .error .notShiftable else .error .noSuchClaim
  | some k =>
    match s.slot p k with
    | .empty => .error .noSuchClaim
    | .pending .. => .error .notShiftable
    | .draining .. => .error .notShiftable
    | .held .. => if (s.drainOf p).isSome then .error .notShiftable else .ok k

/-- What follows the grant at once of a shift target: an arm's source drains at once where the drain test passes
against its evaluation record (R108), and party C's source has been released with the grant (R109). A grant scan follows
a release. With it the source outcome and the tiles freed. -/
def State.settleShift (s : State) (p : Party) (k source : SlotNo) (r : Rect) : State × SourceOutcome × Nat :=
  let g := s.grant ⟨p, k⟩ r (some source)
  match p.arm, g.2 with
  | none, some freed => (g.1.grantScan, .released, freed)
  | none, none => (g.1, .draining, 0)
  | some x, _ =>
    match (g.1.slot p source).heldRect with
    | none => (g.1, .draining, 0)
    | some src =>
      if g.1.drainPasses x src r then
        ((g.1.releaseSlot p source).1.grantScan, .released, (g.1.releaseSlot p source).2)
      else (g.1, .draining, 0)

/-- A SHIFT past checks 1 to 7: check 8, then its target is granted at once, refused CYCLE, or queued (R104, R105). -/
def placeShift (s : State) (p : Party) (k source : SlotNo) (r : Rect) (swapped : Bool) : State × Answer :=
  match s.firstProtected r with
  | some t => (s, ⟨.protected_, false, .tile t⟩)
  | none =>
    if s.grantable p r s.nextArrival then
      let g := s.settleShift p k source r
      (g.1, ⟨.granted, swapped, .shiftGranted k source r g.2.1 g.2.2⟩)
    else if s.closesCycle p r then refuse s .cycle
    else
      (s.enqueue p k r (some source),
        ⟨.queued, swapped, .shiftQueued k source r (s.waitsOn p r s.nextArrival)⟩)

/-- SHIFT: the checks of R102 in their order. -/
def shiftRequest (p : Party) (source c0 c1 r0 r1 : Byte) (s : State) : State × Answer :=
  if s.mode ≠ .guarding then refuse s .wrongMode
  else
    match s.standing p with
    | some code => refuse s code
    | none =>
      match s.shiftSource p source with
      | .error code => refuse s code
      | .ok src =>
        match s.params.rect c0 c1 r0 r1 with
        | none => refuse s .badRect
        | some (r, swapped) =>
          if (s.pendingOf p).isSome then refuse s .pendingExists
          else
            match s.firstEmpty p with
            | none => refuse s .tableFull
            | some k => placeShift s p k src r swapped

/-- SHIFT (R102). -/
def execShift (p : Party) (tag : BitVec 4) (rep : Option Report) (source col0 col1 row0 row1 : Byte) (s : State) :
    Answered :=
  serve (.shift p tag rep source col0 col1 row0 row1) (shiftRequest p source col0 col1 row0 row1) s

/-! ### RELEASE (R70 to R73) -/

/-- RELEASE of an ordinary slot: a withdrawal of a PENDING claim (R72), or a release under the OCCUPIED test (R71), with
the grant scan that follows. -/
def releaseOrdinary (p : Party) (k : SlotNo) (s : State) : State × Answer :=
  match s.slot p k with
  | .empty => refuse s .noSuchClaim
  | .pending .. => ((s.removePending ⟨p, k⟩).grantScan, ⟨.done, false, .released k.val .pending 0⟩)
  | .held r l =>
    match s.occupiedTile p r.contains with
    | some t => (s, ⟨.occupied, false, .tile t⟩)
    | none =>
      ((s.releaseSlot p k).1.grantScan,
        ⟨.done, false, .released k.val (Claim.held r l).state (s.releaseSlot p k).2⟩)
  | .draining r t =>
    match s.occupiedTile p r.contains with
    | some t => (s, ⟨.occupied, false, .tile t⟩)
    | none =>
      ((s.releaseSlot p k).1.grantScan,
        ⟨.done, false, .released k.val (Claim.draining r t).state (s.releaseSlot p k).2⟩)

/-- RELEASE of slot 4 of an arm: its trip claim, under the OCCUPIED test (R71, R77). -/
def releaseTripRequest (x : Arm) (s : State) : State × Answer :=
  if s.tripTiles x = [] then refuse s .noSuchClaim
  else
    match s.occupiedTile x.party (s.inTrip x) with
    | some t => (s, ⟨.occupied, false, .tile t⟩)
    | none => ((s.releaseTrip x).1.grantScan, ⟨.done, false, .released 4 .held (s.releaseTrip x).2⟩)

/-- RELEASE: the conditions of R70 in their order. DESIGN CHOICE (log 30): the state that the claim had "before the
request" is the one in which the command section finds it, after the request's own report. -/
def releaseRequest (p : Party) (slot : Byte) (s : State) : State × Answer :=
  if s.mode = .setup then refuse s .wrongMode
  else
    match slotOfByte slot with
    | some k => releaseOrdinary p k s
    | none =>
      match p.arm with
      | some x => if slot.toNat = 4 then releaseTripRequest x s else refuse s .noSuchClaim
      | none => refuse s .noSuchClaim

/-- RELEASE (R70). -/
def execRelease (p : Party) (tag : BitVec 4) (rep : Option Report) (slot : Byte) (s : State) : Answered :=
  serve (.release p tag rep slot) (releaseRequest p slot) s

/-! ### READ_CLAIMS and READ_QUEUE (R79, R101) -/

/-- Position of a claim in the queue, counted from 1 at the head (R80). -/
def State.position (s : State) (n : ClaimName) : Nat := s.queue.idxOf n + 1

/-- An ordinary slot as READ_CLAIMS gives it (R79). -/
def State.viewSlot (s : State) (p : Party) (k : SlotNo) : ClaimView :=
  match s.slot p k with
  | .empty => ⟨.empty, none, none, none, none, none, none, none⟩
  | .pending r w l =>
    ⟨.pending, some false, some r, none, some (s.position ⟨p, k⟩), some (ageMs w.age), some w.asked, l⟩
  | .held r l => ⟨.held, some false, some r, none, none, none, none, l⟩
  | .draining r t => ⟨.draining, some false, some r, none, none, none, none, some t⟩

/-- The smallest rectangle containing a set of tiles (R79). -/
def boundingRect : List Tile → Rect
  | [] => ⟨0, 0, 0, 0⟩
  | t :: ts =>
    ts.foldl
      (fun r u => ⟨min r.col0 u.col.val, max r.col1 u.col.val, min r.row0 u.row.val, max r.row1 u.row.val⟩)
      ⟨t.col.val, t.col.val, t.row.val, t.row.val⟩

/-- Slot 4 of an arm as READ_CLAIMS gives it (R79). -/
def State.viewTrip (s : State) (x : Arm) : ClaimView :=
  match s.tripTiles x with
  | [] => ⟨.empty, none, none, none, none, none, none, none⟩
  | t :: ts => ⟨.held, some true, none, some ((t :: ts).length, boundingRect (t :: ts)), none, none, none, none⟩

/-- The slots of a party in slot order: five for an arm, four for C (R79). -/
def State.viewClaims (s : State) (p : Party) : List ClaimView :=
  slotNos.map (s.viewSlot p) ++
    (match p.arm with
      | some x => [s.viewTrip x]
      | none => [])

/-- READ_CLAIMS: a party code other than A, B or C is refused BAD_FRAME (R79). -/
def readClaimsRequest (party : Byte) (s : State) : State × Answer :=
  match partyOfCode party with
  | none => refuse s .badFrame
  | some p => (s, ⟨.done, false, .claims (s.viewClaims p)⟩)

/-- READ_CLAIMS (R79). -/
def execReadClaims (tag : BitVec 4) (party : Byte) (s : State) : Answered :=
  serve (.readClaims tag party) (readClaimsRequest party) s

/-- An entry of the queue as READ_QUEUE gives it, its waits-on set computed at the read (R101). -/
def State.viewWaiter (s : State) (w : Waiter) : QueueView :=
  ⟨w.name, w.rect, w.link, ageMs w.wait.age, w.wait.asked, s.waitsOn w.name.party w.rect w.wait.arrival⟩

/-- READ_QUEUE: the queue in order (R101). -/
def readQueueRequest (s : State) : State × Answer :=
  (s, ⟨.done, false, .queue (s.waiters.map s.viewWaiter)⟩)

/-- READ_QUEUE (R101). -/
def execReadQueue (tag : BitVec 4) (s : State) : Answered := serve (.readQueue tag) readQueueRequest s

end Sys2Proof.Machine
end

