-- ==== Sys2Proof/Machine/Events.lean ====
section
/-! DEFINITION. The events that no exchange brings: timer expiries (R50, R92, R93), the halt line (R153) and reset
(R156). -/

namespace Sys2Proof.Machine

open Sys2Proof

/-! ### Timers -/

/-- REPORT_PERIOD_EXPIRY: the expiry of a running timer (R50); the expiry of a stopped timer does not happen (R55). -/
def execReportPeriodExpiry (x : Arm) (s : State) : Answered :=
  match (s.arm x).monitor.timer with
  | none => .next s
  | some _ => .next (s.periodExpiry x)

/-- WAIT_LIMIT_EXPIRY: a PENDING claim is removed with EXPIRED, and a grant scan follows. With WAIT_LIMIT 0 no claim
expires, and a claim that is not PENDING does not (R92, R99). -/
def execWaitLimitExpiry (p : Party) (k : SlotNo) (s : State) : Answered :=
  match s.slot p k with
  | .pending _ _ _ =>
    if s.params.waitLimit = 0 then .next s
    else .next (((s.removePending ⟨p, k⟩).raise p (.expired k)).grantScan)
  | .empty => .next s
  | .held _ _ => .next s
  | .draining _ _ => .next s

/-- YIELD at every other party that owns a tile of the rectangle, naming the waiting party and its slot (R93). -/
def State.raiseYield (s : State) (p : Party) (k : SlotNo) (r : Rect) : State :=
  parties.foldl (fun s1 y => if y ≠ p ∧ s.ownsIn y r = true then s1.raise y (.yield p k) else s1) s

/-- YIELD_TIME: the yield-asked flag of a PENDING claim is set and the owners of its tiles are asked, once per claim
(R93). The wait age stands at YIELD_PATIENCE at least, as the event says (log 7). -/
def execYieldTime (p : Party) (k : SlotNo) (s : State) : Answered :=
  match s.slot p k with
  | .pending r w l =>
    if w.asked then .next s
    else
      let w1 : Waiting := ⟨w.arrival, max w.age (s.params.yieldPatience * 1000), true⟩
      .next ((s.setSlot p k (.pending r w1 l)).raiseYield p k r)
  | .empty => .next s
  | .held _ _ => .next s
  | .draining _ _ => .next s

/-! ### The halt line (R153) -/

/-- An assertion of the halt line: the level becomes ASSERTED, HALT_LINE is raised with the mode as detail, and in
GUARDING the cell goes to HALTED (R153). -/
def State.assertLine (s : State) : State :=
  let s1 := { s with haltLevel := true }.raise .C (.haltLine s.mode)
  if s.mode = .guarding then s1.haltCell .line else s1

/-- HALT_LINE_ASSERTION: HALT_N falls (R153). While the part is held in reset only the pin changes (R156). -/
def execHaltLineAssertion (s : State) : Answered :=
  let s1 := { s with haltPinLow := true }
  .next (if s.held then s1 else s1.assertLine)

/-- HALT_LINE_RELEASE: HALT_N rises; the level becomes RELEASED, and no notice is raised (R153). -/
def execHaltLineRelease (s : State) : Answered :=
  let s1 := { s with haltPinLow := false }
  .next (if s.held then s1 else { s1 with haltLevel := false })

/-! ### Reset (R156) -/

/-- RESET: every block is held at its reset values, and the permit and attention lines are off (R156). The level at the
HALT_N pin, the queue of commands and the count of free values used are not the part's to reset. -/
def execReset (s : State) : Answered :=
  .next
    { State.reset with
      held := true, haltPinLow := s.haltPinLow, freeCount := s.freeCount, pending := s.pending }

/-- RESET_RELEASE: the part leaves reset and takes the level of HALT_N, a low level as an assertion under R153; each
buffer holds a RESTARTED reply with its header taken now (R156, R168). Where the part is not held, it does not happen
(log 5). -/
def execResetRelease (s : State) : Answered :=
  if s.held then
    let s1 := { s with held := false }
    let s2 := if s.haltPinLow then s1.assertLine else { s1 with haltLevel := false }
    .next (((s2.placeRestarted .A).placeRestarted .B).placeRestarted .C)
  else .next s

end Sys2Proof.Machine
end

