-- ==== Sys2Proof/Machine/Modes.lean ====
section
/-! DEFINITION. The requests to the Mode Controller (chapter 9): SET_PARAM, GET_PARAM, START, STOP, HALT and
CLEAR_HALT. -/

namespace Sys2Proof.Machine

open Sys2Proof

/-! ### Parameters (R159, R160) -/

/-- SET_PARAM: the conditions of R159 in their order; DONE where the stored value is the value written, CLAMPED where
the two differ. -/
def setParamRequest (ident : Byte) (value : Word16) (s : State) : State × Answer :=
  if s.mode ≠ .setup then refuse s .wrongMode
  else
    match paramRange ident.toNat with
    | none => refuse s .badParam
    | some range =>
      let v := storedValue ident.toNat value.toNat range
      ({ s with params := s.params.write ident.toNat v },
        ⟨if v = value.toNat then .done else .clamped, false, .param ident v⟩)

/-- SET_PARAM (R159). -/
def execSetParam (tag : BitVec 4) (ident : Byte) (value : Word16) (s : State) : Answered :=
  serve (.setParam tag ident value) (setParamRequest ident value) s

/-- GET_PARAM: the stored value of a known identifier (R160). -/
def getParamRequest (ident : Byte) (s : State) : State × Answer :=
  match paramRange ident.toNat with
  | none => refuse s .badParam
  | some _ => (s, ⟨.done, false, .param ident (s.params.read ident.toNat)⟩)

/-- GET_PARAM (R160). -/
def execGetParam (tag : BitVec 4) (ident : Byte) (s : State) : Answered :=
  serve (.getParam tag ident) (getParamRequest ident) s

/-! ### START (R150) -/

/-- The geometry epoch raised by 1; from 255 it goes to 1 (R150). -/
def raiseEpoch (e : Byte) : Byte := if e = 255 then 1 else e + 1

/-- START: the conditions of R150 in their order. -/
def startRequest (s : State) : State × Answer :=
  if s.mode ≠ .setup then refuse s .wrongMode
  else if s.haltLevel then refuse s .causeActive
  else ({ s with epoch := raiseEpoch s.epoch, mode := .guarding }, ⟨.done, false, .started (raiseEpoch s.epoch)⟩)

/-- START (R150). -/
def execStart (tag : BitVec 4) (s : State) : Answered := serve (.start tag) startRequest s

/-! ### STOP (R151) -/

/-- How many slots of the claim table are not EMPTY (R151). -/
def State.claimsHeld (s : State) : Nat :=
  (parties.map fun p => slotNos.countP fun k => (s.slot p k).state != .empty).sum +
    (if s.tripTiles .A = [] then 0 else 1) + (if s.tripTiles .B = [] then 0 else 1)

/-- A tile record after STOP: no owner, no hold, CLOSING turned BLOCKED (R18). -/
def TileRecord.stopped (r : TileRecord) : TileRecord :=
  { r with service := if r.service = .closing then .blocked else r.service, owner := none, hold := 0 }

/-- Step 1 of STOP: every slot EMPTY, the queue empty, every tile without owner, CLOSING tiles BLOCKED, the
closing-tile count 0 with its BLOCK_DONE (R18, R98, R151). -/
def State.clearClaims (s : State) : State :=
  let s1 := { s with claims := .initial, queue := [], tiles := s.tiles.update fun _ r => r.stopped, closing := 0 }
  if 0 < s.closing then s1.raise .C .blockDone else s1

/-- STOP: DONE with no change in SETUP; otherwise the claims are cleared, both arms become OFFLINE, the mode becomes
SETUP, and STOPPED is raised at both Arm Ports (R151). -/
def stopRequest (s : State) : State × Answer :=
  if s.mode = .setup then (s, ⟨.done, false, .stopped .setup 0 0⟩)
  else
    let before := s.mode
    let s1 := (s.clearClaims.goOffline .A).goOffline .B
    let s2 := { s1 with mode := .setup }
    ((s2.raise .A (.stopped before)).raise .B (.stopped before),
      ⟨.done, false, .stopped before s.claimsHeld (countTiles fun t => (s.tile t).service == .closing)⟩)

/-- STOP (R151). -/
def execStop (tag : BitVec 4) (s : State) : Answered := serve (.stop tag) stopRequest s

/-! ### HALT (R152) and CLEAR_HALT (R154) -/

/-- HALT: taken in GUARDING, refused WRONG_MODE elsewhere; the payload gives the PENDING claims cancelled and the arms
tripped (R152). -/
def haltRequest (s : State) : State × Answer :=
  if s.mode ≠ .guarding then refuse s .wrongMode
  else
    (s.haltCell .request,
      ⟨.done, false,
        .halted (parties.countP fun p => (s.pendingOf p).isSome) ⟨s.trippable .A, s.trippable .B, false⟩⟩)

/-- HALT (R152). -/
def execHalt (tag : BitVec 4) (s : State) : Answered := serve (.halt tag) haltRequest s

/-- CLEAR_HALT: the conditions of R154 in their order. -/
def clearHaltRequest (s : State) : State × Answer :=
  if s.mode ≠ .halted then refuse s .wrongMode
  else if s.haltLevel then refuse s .causeActive
  else ({ s with mode := .guarding }, ⟨.done, false, .empty⟩)

/-- CLEAR_HALT (R154). -/
def execClearHalt (tag : BitVec 4) (s : State) : Answered := serve (.clearHalt tag) clearHaltRequest s

end Sys2Proof.Machine
end

