-- ==== Sys2Proof/Machine/Tiles.lean ====
section
/-! DEFINITION. The requests over the Tile Map (chapter 1): READ_ROW, WRITE_ROW, BLOCK and UNBLOCK. -/

namespace Sys2Proof.Machine

open Sys2Proof

/-- READ_ROW: the records of the active columns of one row; a row beyond NROW−1 is refused BAD_RECT (R20). -/
def readRowRequest (row : Byte) (s : State) : State × Answer :=
  if s.params.nrow ≤ row.toNat then refuse s .badRect
  else
    let ts := allTiles.filter fun t => t.row.val == row.toNat && decide (t.col.val < s.params.ncol)
    (s, ⟨.done, false, .row (ts.map s.tile)⟩)

/-- READ_ROW (R20). -/
def execReadRow (p : Party) (tag : BitVec 4) (rep : Option Report) (row : Byte) (s : State) : Answered :=
  serve (.readRow p tag rep row) (readRowRequest row) s

/-- WRITE_ROW: the mode, the entry count, and the row and start column are checked in that order (R9); the effective
entries are then written or kept (R10, R11). -/
def writeRowRequest (row start : Byte) (entries : List Byte) (s : State) : State × Answer :=
  if s.mode ≠ .setup then refuse s .wrongMode
  else if entries.length < 1 ∨ 32 < entries.length then refuse s .badFrame
  else if s.params.nrow ≤ row.toNat ∨ s.params.ncol ≤ start.toNat then refuse s .badRect
  else
    let eff := effectiveEntries s.params.ncol start.toNat entries
    let written := eff.countP fun e => (entryValue e.2).isSome
    let tiles := s.tiles.update fun t r => if t.row.val = row.toNat then r.writeEntry eff t.col.val else r
    ({ s with tiles := tiles }, ⟨.done, false, .rowWritten written (eff.length - written)⟩)

/-- WRITE_ROW (R9 to R11). -/
def execWriteRow (tag : BitVec 4) (row start : Byte) (entries : List Byte) (s : State) : Answered :=
  serve (.writeRow tag row start entries) (writeRowRequest row start entries) s

/-! ### BLOCK (R12 to R14, R94) -/

/-- A tile that a BLOCK turns from OPEN to CLOSING: OPEN and owned (R13). -/
def TileRecord.blocksToClosing (r : TileRecord) : Bool := r.service == .opened && r.owner.isSome

/-- A tile that a BLOCK turns from OPEN to BLOCKED: OPEN and free (R13). -/
def TileRecord.blocksToBlocked (r : TileRecord) : Bool := r.service == .opened && r.owner.isNone

/-- A tile record after a BLOCK of it (R13). -/
def TileRecord.block (r : TileRecord) : TileRecord :=
  if r.blocksToClosing then { r with service := .closing }
  else if r.blocksToBlocked then { r with service := .blocked }
  else r

/-- Withdraw a PENDING claim over the tiles that a BLOCK changed, with WITHDRAWN at its party's port naming the slot and
the first of those tiles of its rectangle in scan order (R94). -/
def withdrawOver (changed : Tile → Bool) (s : State) (n : ClaimName) : State :=
  match s.waiter n with
  | none => s
  | some w =>
    match firstTile fun t => w.rect.contains t && changed t with
    | none => s
    | some t => (s.removePending n).raise n.party (.withdrawn n.slot t)

/-- BLOCK: free OPEN tiles become BLOCKED and owned OPEN tiles CLOSING (R13); PENDING claims over them are withdrawn, and
where any was, a grant scan follows (R14). -/
def blockRequest (c0 c1 r0 r1 : Byte) (s : State) : State × Answer :=
  if s.mode ≠ .guarding then refuse s .wrongMode
  else
    match s.params.rect c0 c1 r0 r1 with
    | none => refuse s .badRect
    | some (r, swapped) =>
      let toClosing := countTiles fun t => r.contains t && (s.tile t).blocksToClosing
      let toBlocked := countTiles fun t => r.contains t && (s.tile t).blocksToBlocked
      let changed := fun t => r.contains t && (s.tile t).service == .opened
      let s1 :=
        { s with
          tiles := s.tiles.update fun t q => if r.contains t then q.block else q,
          closing := s.closing + toClosing }
      let s2 := s.queue.foldl (withdrawOver changed) s1
      let s3 := if s2.queue.length < s.queue.length then s2.grantScan else s2
      (s3, ⟨if toClosing = 0 then .done else .closing, swapped, .blocked toClosing toBlocked⟩)

/-- BLOCK (R12 to R14). -/
def execBlock (tag : BitVec 4) (c0 c1 r0 r1 : Byte) (s : State) : Answered :=
  serve (.block tag c0 c1 r0 r1) (blockRequest c0 c1 r0 r1) s

/-! ### UNBLOCK (R12, R17) -/

/-- UNBLOCK: BLOCKED and CLOSING tiles become OPEN, and the closing-tile count falls by the CLOSING ones with the
BLOCK_DONE consequence of R16; a grant scan follows (R17). -/
def unblockRequest (c0 c1 r0 r1 : Byte) (s : State) : State × Answer :=
  if s.mode ≠ .guarding then refuse s .wrongMode
  else
    match s.params.rect c0 c1 r0 r1 with
    | none => refuse s .badRect
    | some (r, swapped) =>
      let opened := countTiles fun t => r.contains t && (s.tile t).service != .opened
      let reopened := countTiles fun t => r.contains t && (s.tile t).service == .closing
      let s1 :=
        { s with tiles := s.tiles.update fun t q => if r.contains t then { q with service := .opened } else q }
      ((s1.lowerClosing reopened).grantScan, ⟨.done, swapped, .unblocked opened⟩)

/-- UNBLOCK (R12, R17). -/
def execUnblock (tag : BitVec 4) (c0 c1 r0 r1 : Byte) (s : State) : Answered :=
  serve (.unblock tag c0 c1 r0 r1) (unblockRequest c0 c1 r0 r1) s

end Sys2Proof.Machine
end

