-- ==== Sys2Proof/Machine/Dispatch.lean ====
section
/-! DEFINITION. One arm for each command of spec/opcode_table.json. -/

namespace Sys2Proof.Machine

open Sys2Proof

def exec (i : Instr) (s : State) : Host.Outcome State Fault Refusal :=
  match i with
  | .exchangeEnd p f => Sys2Proof.Machine.execExchangeEnd p f s
  | .overrun p f => Sys2Proof.Machine.execOverrun p f s
  | .nop p tag rep => Sys2Proof.Machine.execNop p tag rep s
  | .ack p tag rep codes => Sys2Proof.Machine.execAck p tag rep codes s
  | .readRow p tag rep row => Sys2Proof.Machine.execReadRow p tag rep row s
  | .join x tag rep epoch => Sys2Proof.Machine.execJoin x tag rep epoch s
  | .leave x tag rep => Sys2Proof.Machine.execLeave x tag rep s
  | .clearTrip x tag rep => Sys2Proof.Machine.execClearTrip x tag rep s
  | .readTrip p tag rep arm => Sys2Proof.Machine.execReadTrip p tag rep arm s
  | .claim p tag rep col0 col1 row0 row1 => Sys2Proof.Machine.execClaim p tag rep col0 col1 row0 row1 s
  | .shift p tag rep source col0 col1 row0 row1 => Sys2Proof.Machine.execShift p tag rep source col0 col1 row0 row1 s
  | .release p tag rep slot => Sys2Proof.Machine.execRelease p tag rep slot s
  | .block tag col0 col1 row0 row1 => Sys2Proof.Machine.execBlock tag col0 col1 row0 row1 s
  | .unblock tag col0 col1 row0 row1 => Sys2Proof.Machine.execUnblock tag col0 col1 row0 row1 s
  | .writeRow tag row col entries => Sys2Proof.Machine.execWriteRow tag row col entries s
  | .setParam tag ident value => Sys2Proof.Machine.execSetParam tag ident value s
  | .getParam tag ident => Sys2Proof.Machine.execGetParam tag ident s
  | .start tag => Sys2Proof.Machine.execStart tag s
  | .stop tag => Sys2Proof.Machine.execStop tag s
  | .halt tag => Sys2Proof.Machine.execHalt tag s
  | .clearHalt tag => Sys2Proof.Machine.execClearHalt tag s
  | .evict tag arm => Sys2Proof.Machine.execEvict tag arm s
  | .readClaims tag party => Sys2Proof.Machine.execReadClaims tag party s
  | .readQueue tag => Sys2Proof.Machine.execReadQueue tag s
  | .readArm tag arm => Sys2Proof.Machine.execReadArm tag arm s
  | .reportPeriodExpiry x => Sys2Proof.Machine.execReportPeriodExpiry x s
  | .waitLimitExpiry p k => Sys2Proof.Machine.execWaitLimitExpiry p k s
  | .yieldTime p k => Sys2Proof.Machine.execYieldTime p k s
  | .haltLineAssertion => Sys2Proof.Machine.execHaltLineAssertion s
  | .haltLineRelease => Sys2Proof.Machine.execHaltLineRelease s
  | .reset => Sys2Proof.Machine.execReset s
  | .resetRelease => Sys2Proof.Machine.execResetRelease s
  | .frameCheckRefusal p => Sys2Proof.Machine.execFrameCheckRefusal p s

end Sys2Proof.Machine
end

