-- ==== Sys2Proof/Machine/Idle.lean ====
section
/-! DEFINITION. What the part does while no command waits: the report section of a request in processing is taken, else a
due timer event, else time passes. -/

namespace Sys2Proof.Machine

open Sys2Proof

/-! ### The report section of a request in processing (R163 step 2; log 27) -/

/-- The report of the request in processing at an arm's port, while its report section has not been taken. -/
def State.reportDue (s : State) (x : Arm) : Option Report :=
  if (s.port x.party).reported then none else s.carriedReport x.party

/-- The report section of the request in processing at an arm's port is taken, with its evaluation and that evaluation's
hand-off (R43, R163 step 2). Its command section is left to the request's own command, so that events of other sources may
come first. -/
def State.takeSection (s : State) (x : Arm) (rep : Report) : State :=
  let s1 := s.takeReport x.party (some rep)
  s1.setPort x.party { s1.port x.party with reported := true }

/-! ### Timer events that are due (log 8) -/

/-- The expiry of an arm's report-period timer is due: the time left is 0 (R49). -/
def State.periodDue (s : State) (x : Arm) : Option Instr :=
  match (s.arm x).monitor.timer with
  | some 0 => some (.reportPeriodExpiry x)
  | _ => none

/-- The event of a waiting claim that is due: its wait age has reached WAIT_LIMIT, or YIELD_PATIENCE while its
yield-asked flag is clear (R91 to R93). -/
def State.waitDue (s : State) (w : Waiter) : Option Instr :=
  if 0 < s.params.waitLimit ∧ s.params.waitLimit * 1000 ≤ w.wait.age then
    some (.waitLimitExpiry w.name.party w.name.slot)
  else if s.params.yieldPatience * 1000 ≤ w.wait.age ∧ w.wait.asked = false then
    some (.yieldTime w.name.party w.name.slot)
  else none

/-- The timer event that an idle step takes, in the model's own order among those that are due (log 8). -/
def State.dueEvent (s : State) : Option Instr :=
  match s.periodDue .A, s.periodDue .B with
  | some c, _ => some c
  | none, some c => some c
  | none, none => s.waiters.findSome? s.waitDue

/-- A step with no command waiting (log 6): a report section of arm A's port, else of arm B's, else a timer event that is
due, else the passing of time. -/
def idle (s : State) : Answered :=
  match s.reportDue .A, s.reportDue .B with
  | some rep, _ => .next (s.takeSection .A rep)
  | none, some rep => .next (s.takeSection .B rep)
  | none, none =>
    match s.dueEvent with
    | some c => exec c s
    | none => .next (s.elapse Config.tick)

end Sys2Proof.Machine
end

