-- ==== Sys2Proof/Safety.lean ====
section
/-! DEFINITION. What counts as a safe state: the laws of the device that the spec states, each over one kind of
state, and their conjunction. -/

namespace Sys2Proof.Machine

open Sys2Proof

/-! ### Guard states, permits and the cell mode (R118, R119, R149) -/

/-- The laws of one arm. Its permit is on exactly while it is LIVE, and it is ARMING or LIVE only in GUARDING (R118); it
is OFFLINE in SETUP (R149); while it is joined, it carries the current geometry epoch (R119) and its report-period timer
runs (R49); its clean count is above 0 only in ARMING and LIVE (R117). -/
abbrev State.ArmLaw (s : State) (x : Arm) : Prop :=
  ((s.arm x).guard.permit = true ↔ s.guardState x = .live) ∧
  (s.guardState x = .arming ∨ s.guardState x = .live → s.mode = .guarding) ∧
  (s.mode = .setup → s.guardState x = .offline) ∧
  (s.guardState x ≠ .offline → (s.arm x).guard.joined = some s.epoch) ∧
  ((s.arm x).monitor.timer.isSome = true ↔ s.guardState x ≠ .offline) ∧
  (0 < (s.arm x).guard.clean → s.guardState x = .arming ∨ s.guardState x = .live)

/-- The laws of the mode: the arm laws of both arms; in GUARDING the halt-line level is RELEASED (R149); the epoch is not
0 outside SETUP (R150); the level follows the pin while the part is not held (R153); and a part that is held in reset is in
SETUP with no request in processing (R156). -/
abbrev State.ModeLaw (s : State) : Prop :=
  (∀ x, s.ArmLaw x) ∧
  (s.mode = .guarding → s.haltLevel = false) ∧
  (s.mode ≠ .setup → s.epoch ≠ 0) ∧
  (s.held = false → s.haltLevel = s.haltPinLow) ∧
  (s.held = true → s.mode = .setup ∧ s.haltLevel = false ∧ ∀ p, (s.port p).processing = none)

/-- The stage of a port: its report section has been taken only where the request in processing carries a report, which
none does at the Cell Port (R43, R163). -/
abbrev State.StageLaw (s : State) (p : Party) : Prop :=
  (s.port p).reported = true → (s.carriedReport p).isSome = true

/-- The state in which every block is held at its reset values: what stands is the pins, the model's own fields, and the
record of what each port shifted out (R156; logs 2 to 4). -/
def State.blocksAtReset (s : State) : State :=
  { State.reset with
    held := s.held, haltPinLow := s.haltPinLow, freeCount := s.freeCount, pending := s.pending,
    portA := { State.reset.portA with shifted := s.portA.shifted },
    portB := { State.reset.portB with shifted := s.portB.shifted },
    portC := { State.reset.portC with shifted := s.portC.shifted } }

/-- While the part is held in reset, every block is held at its reset values (R156). -/
abbrev State.HeldLaw (s : State) : Prop := s.held = true → s = s.blocksAtReset

/-! ### The parameter store (R158) -/

/-- A value lies in a range. -/
abbrev inRange (v : Nat) (r : Nat × Nat) : Prop := r.1 ≤ v ∧ v ≤ r.2

/-- Every per-arm parameter lies in its range, REPORT_PERIOD at a multiple of 250 (R56, R157, R158). -/
abbrev ArmParams.Law (a : ArmParams) : Prop :=
  inRange a.toolRadius (0, 1000) ∧ inRange a.elbowRadius (0, 1000) ∧ inRange a.reaction (1, 50) ∧
  inRange a.decel (5, 200) ∧ inRange a.vmax (100, 4000) ∧ inRange a.creep (10, 200) ∧
  inRange a.rearmCount (1, 16) ∧ inRange a.reportPeriod (250, 4000) ∧ a.reportPeriod % 250 = 0 ∧
  inRange a.staleLimit (1, 8)

/-- Every value of the parameter store lies within its range (R158). -/
abbrev Params.Law (ps : Params) : Prop :=
  inRange ps.ncol (2, 16) ∧ inRange ps.nrow (1, 8) ∧ inRange ps.pitch (100, 2000) ∧
  inRange ps.guardMargin (0, 500) ∧ inRange ps.waitLimit (0, 60000) ∧ inRange ps.yieldPatience (10, 60000) ∧
  inRange ps.zoneLimit1 (10, 4000) ∧ inRange ps.zoneLimit2 (10, 4000) ∧ inRange ps.zoneLimit3 (10, 4000) ∧
  ps.armA.Law ∧ ps.armB.Law

/-! ### Attention sets (R169) -/

/-- The notice kinds of the Arm Ports and of the Cell Port (R169). -/
def Notice.allowedAt (n : Notice) (p : Party) : Bool :=
  if p = .C then (n.code ≤ 5 || n.code == 11 || n.code == 12 || 14 ≤ n.code) else n.code ≤ 13

/-- An attention set holds kinds of its port, each at most once, in ascending code order, and the attention line is on
exactly while it is non-empty (R169). -/
abbrev State.AttentionLaw (s : State) (p : Party) : Prop :=
  ((s.port p).attention.map Notice.code).Pairwise (· < ·) ∧
  (∀ n ∈ (s.port p).attention, n.allowedAt p = true) ∧
  ((s.port p).line = true ↔ (s.port p).attention ≠ [])

/-! ### The Report Monitor and LIVE (R50, R117, R122) -/

/-- The laws of an arm's counts. The missed count of a joined arm is at most STALE_LIMIT + 1 (R50) and of a LIVE arm at
most STALE_LIMIT; a LIVE arm's most recent evaluation found no breach and holds an envelope (R122, R134), its clean
count stands at REARM_COUNT (R117), and it has a last report (R50); the clean count of an ARMING arm is below REARM_COUNT
(R122; for a REARM_COUNT of 1 log 28); a stored report has a TOOL record first, and an ELBOW record second where
ELBOW_RADIUS is above 0 while the arm is joined (R44); and a TRIPPED arm has a valid trip record (R142). -/
abbrev State.CountLaw (s : State) (x : Arm) : Prop :=
  let u := s.arm x
  let a := s.params.arm x
  (u.guard.state ≠ .offline → u.monitor.missed ≤ a.staleLimit + 1) ∧
  (u.guard.state = .live →
    u.monitor.missed ≤ a.staleLimit ∧ u.guard.clean = a.rearmCount ∧ u.monitor.lastReport.isSome = true ∧
    (u.evaluation.any fun e => e.result.isNone && !e.retained) = true) ∧
  (u.guard.state = .arming → u.guard.clean < a.rearmCount) ∧
  (u.monitor.lastReport.all fun r => r.probes.head?.bind Probe.guarded == some .tool) = true ∧
  (u.guard.state ≠ .offline → 0 < a.elbowRadius →
    (u.monitor.lastReport.all fun r => r.probes.tail.head?.bind Probe.guarded == some .elbow) = true) ∧
  (u.guard.state = .tripped → u.guard.trip.isSome = true)

/-! ### The claim queue (R80, R81) -/

/-- The queue holds exactly the PENDING claims of the claim table, at most one per party, in order of arrival, and none
outside GUARDING (R80 to R82). -/
abbrev State.QueueLaw (s : State) : Prop :=
  (s.queue.map ClaimName.party).Nodup ∧
  (∀ p k, (⟨p, k⟩ : ClaimName) ∈ s.queue ↔ (s.slot p k).state = .pending) ∧
  (s.waiters.map fun w => w.wait.arrival).Pairwise (· < ·) ∧
  (s.mode ≠ .guarding → s.queue = [])

/-! ### Claims (R1, R59, R60, R63, R77, R103, R107) -/

/-- A rectangle is normalized and lies in the active grid (R63). -/
abbrev Params.RectLaw (ps : Params) (r : Rect) : Prop :=
  r.col0 ≤ r.col1 ∧ r.col1 < ps.ncol ∧ r.row0 ≤ r.row1 ∧ r.row1 < ps.nrow

/-- The rectangle of a claim, in every state but EMPTY (R60). -/
def Claim.rect : Claim → Option Rect
  | .empty => none
  | .pending r _ _ => some r
  | .held r _ => some r
  | .draining r _ => some r

/-- The link of a claim (R60). -/
def Claim.link : Claim → Option SlotNo
  | .empty => none
  | .pending _ _ l => l
  | .held _ l => l
  | .draining _ t => some t

/-- The links of a slot: a DRAINING claim and its HELD target name each other, in an arm's slots alone (R107, R109), and
a PENDING target names a HELD source without a link while its party has no DRAINING claim (R103, R104). -/
abbrev State.LinkLaw (s : State) (p : Party) (k : SlotNo) : Prop :=
  match s.slot p k with
  | .empty => True
  | .pending _ _ none => True
  | .pending _ _ (some j) =>
    (s.slot p j).state = .held ∧ (s.slot p j).link = none ∧ ∀ i, (s.slot p i).state ≠ .draining
  | .held _ none => True
  | .held _ (some j) => (s.slot p j).state = .draining ∧ (s.slot p j).link = some k
  | .draining _ t => p ≠ .C ∧ (s.slot p t).state = .held ∧ (s.slot p t).link = some k

/-- The laws of an ordinary slot: its rectangle is normalized within the active grid, its links are lawful, and the arm
of a claim is not OFFLINE, while party C has claims outside SETUP alone (R63, R70, R149). -/
abbrev State.SlotLaw (s : State) (p : Party) (k : SlotNo) : Prop :=
  (∀ r ∈ (s.slot p k).rect, s.params.RectLaw r) ∧ s.LinkLaw p k ∧
  ((s.slot p k).state ≠ .empty → s.mode ≠ .setup ∧ ∀ x ∈ p.arm, s.guardState x ≠ .offline)

/-- At most one claim of a party is DRAINING (R103). -/
abbrev State.OneDrain (s : State) (p : Party) : Prop :=
  ∀ j k, (s.slot p j).state = .draining → (s.slot p k).state = .draining → j = k

/-- The laws of slot 4: a trip claim stands only while its arm is TRIPPED, and its tiles are distinct (R77, R125). -/
abbrev State.TripLaw (s : State) (x : Arm) : Prop :=
  (s.tripTiles x ≠ [] → s.guardState x = .tripped) ∧ (s.tripTiles x).Nodup

/-- The cover of an arm that is not OFFLINE lies in the active grid (R31): its record was made since its JOIN, under the
parameters in force (R22, R38). -/
abbrev State.CoverLaw (s : State) (x : Arm) : Prop :=
  s.guardState x ≠ .offline → ∀ t, s.touches x t = true → s.params.active t = true

/-- The laws of the claim table. -/
abbrev State.ClaimLaw (s : State) : Prop :=
  (∀ p k, s.SlotLaw p k) ∧ (∀ p, s.OneDrain p) ∧ (∀ x, s.TripLaw x)

/-! ### Tiles (R1, R6, R7, R16, R94) -/

/-- How many HELD and DRAINING claims of a party include a tile (R6). -/
def State.holdsOf (s : State) (p : Party) (t : Tile) : Nat :=
  (slotNos.countP fun k => (s.slot p k).heldRect.any fun r => r.contains t) +
    (match p.arm with
      | some x => if s.inTrip x t then 1 else 0
      | none => 0)

/-- The owner and hold count of a tile agree with the claims, no tile is in claims of two parties (R6), an inactive
position has no owner (R1), a BLOCKED tile has no owner and a CLOSING tile has one (R7). -/
abbrev State.TileLaw (s : State) (t : Tile) : Prop :=
  let r := s.tile t
  (r.owner = none ↔ r.hold = 0) ∧
  (∀ p, s.holdsOf p t = if r.owner = some p then r.hold else 0) ∧
  (s.params.active t = false → r.owner = none) ∧
  (r.service = .blocked → r.owner = none) ∧
  (r.service = .closing → r.owner ≠ none)

/-- The closing-tile count is the number of CLOSING tiles (R16). -/
abbrev State.ClosingLaw (s : State) : Prop :=
  s.closing = countTiles fun t => (s.tile t).service == .closing

/-- Every tile of the rectangle of a PENDING claim is OPEN (R94). -/
abbrev State.PendingOpen (s : State) : Prop :=
  ∀ w ∈ s.waiters, ∀ t, w.rect.contains t = true → (s.tile t).service = .opened

/-! ### Everything together -/

/-- The laws of the device, together: the invariant that every step keeps. -/
structure State.Lawful (s : State) : Prop where
  mode : s.ModeLaw
  held : s.HeldLaw
  stages : ∀ p, s.StageLaw p
  params : s.params.Law
  attention : ∀ p, s.AttentionLaw p
  counts : ∀ x, s.CountLaw x
  covers : ∀ x, s.CoverLaw x
  queue : s.QueueLaw
  claims : s.ClaimLaw
  tiles : ∀ t, s.TileLaw t
  closing : s.ClosingLaw
  pendingOpen : s.PendingOpen

/-! ### What holds between events (R86, R90) -/

/-- No claim of the queue is grantable (R90). -/
abbrev State.NoneGrantable (s : State) : Prop :=
  ∀ w ∈ s.waiters, s.grantable w.name.party w.rect w.wait.arrival = false

/-- The waits-on relation among the parties has no cycle: no party is reached from itself by one, two or three waits
(R86). -/
abbrev State.NoCycle (s : State) : Prop :=
  ∀ x y z : Party,
    ¬((s.partyWaitsOn x).has y = true ∧ (s.partyWaitsOn y).has x = true) ∧
    ¬((s.partyWaitsOn x).has y = true ∧ (s.partyWaitsOn y).has z = true ∧ (s.partyWaitsOn z).has x = true)

/-! ### Words of the statements -/

/-- The modes in which a request is taken; in the other modes it is refused WRONG_MODE (R149). -/
def takenIn (c : Instr) (m : Mode) : Bool :=
  match c with
  | .setParam .. | .writeRow .. | .start .. => m == .setup
  | .halt .. | .block .. | .unblock .. | .claim .. | .shift .. | .join .. | .clearTrip .. => m == .guarding
  | .clearHalt .. => m == .halted
  | .release .. => m != .setup
  | .stop .. | .leave .. | .evict .. | .nop .. | .ack .. | .getParam .. | .readRow .. | .readClaims .. | .readQueue ..
  | .readTrip .. | .readArm .. => true
  | .exchangeEnd .. | .overrun .. | .reportPeriodExpiry .. | .waitLimitExpiry .. | .yieldTime .. | .haltLineAssertion
  | .haltLineRelease | .reset | .resetRelease | .frameCheckRefusal .. => true

/-- The first tile in scan order with a property: row 0 first, and in a row column 0 first (00_scope.md section 5.2). -/
abbrev IsFirst (f : Tile → Prop) (t : Tile) : Prop :=
  f t ∧ ∀ u, f u → t.row < u.row ∨ (t.row = u.row ∧ t.col ≤ u.col)

/-- The four corner values of a rectangle, as sent, lie in the active grid (R63). -/
abbrev Params.Inside (ps : Params) (c0 c1 r0 r1 : Byte) : Prop :=
  c0.toNat < ps.ncol ∧ c1.toNat < ps.ncol ∧ r0.toNat < ps.nrow ∧ r1.toNat < ps.nrow

/-- The normalized rectangle of four corner values (R63). -/
def Rect.ofCorners (c0 c1 r0 r1 : Byte) : Rect :=
  ⟨min c0.toNat c1.toNat, max c0.toNat c1.toNat, min r0.toNat r1.toNat, max r0.toNat r1.toNat⟩

/-- Normalizing exchanges a pair: the NORMALIZED mark (R63). -/
def exchanged (c0 c1 r0 r1 : Byte) : Bool := decide (c1.toNat < c0.toNat ∨ r1.toNat < r0.toNat)

/-- A party may claim: its arm, if it controls one, is ARMING or LIVE (R62, R102). -/
abbrev State.MayClaim (s : State) (p : Party) : Prop :=
  ∀ x, p.arm = some x → s.guardState x = .arming ∨ s.guardState x = .live

/-- A party has no PENDING claim (R64). -/
abbrev State.NoPending (s : State) (p : Party) : Prop := ∀ w ∈ s.waiters, w.name.party ≠ p

/-- The slot that a new claim of a party takes: the lowest EMPTY one, which no queue entry names (R64, R80). -/
abbrev State.NewSlot (s : State) (p : Party) (k : SlotNo) : Prop :=
  s.slot p k = .empty ∧ (∀ j < k, s.slot p j ≠ .empty) ∧ (⟨p, k⟩ : ClaimName) ∉ s.queue

/-- A new claim of a party over a rectangle is grantable at once: its tiles are OPEN and free or the party's own, and no
PENDING claim shares a tile with it (R66). -/
abbrev State.GrantableAtOnce (s : State) (p : Party) (r : Rect) : Prop :=
  (∀ t, r.contains t = true →
    (s.tile t).service = .opened ∧ ((s.tile t).owner = none ∨ (s.tile t).owner = some p)) ∧
  ∀ w ∈ s.waiters, w.rect.overlaps r = false

/-- A claim of party `x` over `r` waits on party `y`, by ownership or by the precedence of a claim that `earlier`
names (R83). -/
abbrev State.ClaimWaits (s : State) (x : Party) (r : Rect) (earlier : Waiter → Prop) (y : Party) : Prop :=
  y ≠ x ∧
  ((∃ t, r.contains t = true ∧ (s.tile t).owner = some y) ∨
    ∃ v ∈ s.waiters, v.name.party = y ∧ earlier v ∧ v.rect.overlaps r = true)

/-- Party `x` waits on party `y`: its PENDING claim does (R83). -/
abbrev State.Waits (s : State) (x y : Party) : Prop :=
  ∃ w, s.pendingOf x = some w ∧ s.ClaimWaits x w.rect (fun v => v.wait.arrival < w.wait.arrival) y

/-- A new claim of party `x` over `r` would close a cycle of waits (R85). -/
abbrev State.ClosesCycle (s : State) (x : Party) (r : Rect) : Prop :=
  ∃ y, s.ClaimWaits x r (fun _ => True) y ∧
    (s.Waits y x ∨ ∃ z, z ≠ x ∧ z ≠ y ∧ s.Waits y z ∧ s.Waits z x)

/-- The tiles of a claim that is granted gain a hold of its party; the other tiles are as they were (R67). -/
abbrev State.TilesGranted (s u : State) (p : Party) (r : Rect) : Prop :=
  ∀ t, u.tile t =
    if r.contains t = true then { s.tile t with owner := some p, hold := (s.tile t).hold + 1 } else s.tile t

/-- A tile record after one of its holds has ended (R15, R69). -/
def TileRecord.ended (r : TileRecord) : TileRecord :=
  if 1 < r.hold then { r with hold := r.hold - 1 }
  else ⟨if r.service = .closing then .blocked else r.service, r.speedClass, none, 0⟩

/-- A set of tiles loses one hold: the records, the closing-tile count with BLOCK_DONE, and the Cell Port for that
notice; nothing else but the claim table changes (R15, R16, R69). -/
abbrev State.HoldsEnded (s u : State) (f : Tile → Bool) : Prop :=
  (∀ t, u.tile t = if f t = true then (s.tile t).ended else s.tile t) ∧
  (let n := countTiles fun t => f t && decide ((s.tile t).hold ≤ 1) && (s.tile t).service == .closing
   u.closing = s.closing - n ∧
   u.portC = if 0 < s.closing ∧ s.closing ≤ n then s.portC.raise .blockDone else s.portC) ∧
  u = { s with tiles := u.tiles, closing := u.closing, portC := u.portC, claims := u.claims }

/-- The mode, the epoch, the halt line, the parameters, the pins and the model's own fields are as they were. -/
abbrev State.ControlKept (s u : State) : Prop :=
  u = { s with tiles := u.tiles, closing := u.closing, claims := u.claims, queue := u.queue, armA := u.armA,
               armB := u.armB, portA := u.portA, portB := u.portB, portC := u.portC }

/-- The exchange side of a port is as it was: its request in processing with its stage, its reply buffer and its output
record. -/
abbrev State.ExchangeKept (s u : State) (p : Party) : Prop :=
  (u.port p).processing = (s.port p).processing ∧ (u.port p).reported = (s.port p).reported ∧
  (u.port p).reply = (s.port p).reply ∧ (u.port p).shifted = (s.port p).shifted

/-- The report section of the request in processing at an arm's port is due: the frame taken passes the frame checks and
its request carries the report, which has not been taken (R43, R163). -/
abbrev State.SectionDue (s : State) (x : Arm) (rep : Report) : Prop :=
  (s.port x.party).reported = false ∧ ∃ f c q, (s.port x.party).processing = some f ∧
    decodeFrame x.party f = .accepted c ∧ c.request = some q ∧ q.rep = some rep

/-- A claim of the queue that the way from `s` to `u` has granted. -/
abbrev State.Granted (s u : State) (w : Waiter) : Prop := w ∈ s.waiters ∧ w.name ∉ u.queue

/-- A tile of the source of a shift of party C whose target the way from `s` to `u` has granted: the source is released
with the grant (R109). -/
abbrev State.SourceLeft (s u : State) (t : Tile) : Prop :=
  ∃ w, s.Granted u w ∧ w.name.party = .C ∧
    ∃ k r l, w.link = some k ∧ s.slot .C k = .held r l ∧ r.contains t = true

/-- What a grant scan does to the claim table: a granted target is HELD, and names its source where it is an arm's; the
source of an arm becomes DRAINING and names the target, without a drain test (R107, R108), and the source of party C is
released (R109); every other slot is as it was. -/
abbrev State.ScanSlots (s u : State) : Prop :=
  (∀ w, s.Granted u w →
    u.slot w.name.party w.name.slot = .held w.rect (if w.name.party = .C then none else w.link) ∧
    ∀ k r l, w.link = some k → s.slot w.name.party k = .held r l →
      u.slot w.name.party k = if w.name.party = .C then .empty else .draining r w.name.slot) ∧
  (∀ p k, (∀ w, s.Granted u w → w.name.party = p → k ≠ w.name.slot ∧ w.link ≠ some k) → u.slot p k = s.slot p k) ∧
  ∀ x, u.tripTiles x = s.tripTiles x

/-- What a grant scan does to the tiles: those of a source of party C end a hold (`v`), and those of each granted claim,
which are then OPEN and free or its party's, gain one (R67, R69, R87). -/
abbrev State.ScanTiles (s v u : State) : Prop :=
  (∃ f : Tile → Bool, (∀ t, f t = true ↔ s.SourceLeft u t) ∧ s.HoldsEnded v f) ∧
  (∀ w, s.Granted u w → ∀ t, w.rect.contains t = true →
    (v.tile t).service = .opened ∧ ((v.tile t).owner = none ∨ (v.tile t).owner = some w.name.party) ∧
    u.tile t = { v.tile t with owner := some w.name.party, hold := (v.tile t).hold + 1 }) ∧
  (∀ t, (∀ w, s.Granted u w → w.rect.contains t = false) → u.tile t = v.tile t) ∧
  u.closing = v.closing

/-- The record that step 1 of a trip writes anew: neither cleared nor breached again (R142). -/
abbrev TripRecord.New (r : TripRecord) (cause : Cause) : Prop :=
  r.cause = cause ∧ r.cleared = false ∧ r.secondBreach = false

/-- An envelope that a record holds, of its TOOL or of its ELBOW (R37). -/
abbrev Evaluation.Holds (e : Evaluation) (v : Envelope) : Prop :=
  e.tool.envelope = some v ∨ ∃ b, e.elbow = some b ∧ b.envelope = some v

/-- The smallest rectangle that contains every envelope of a record, absent where the record holds none (R142). -/
abbrev Evaluation.Bounds (e : Evaluation) (o : Option EnvelopeRect) : Prop :=
  (o = none ↔ ∀ v, ¬e.Holds v) ∧
  ∀ q, o = some q →
    (∀ v, e.Holds v → q.xLo ≤ v.xLo ∧ v.xHi ≤ q.xHi ∧ q.yLo ≤ v.yLo ∧ v.yHi ≤ q.yHi) ∧
    (∃ v, e.Holds v ∧ v.xLo = q.xLo) ∧ (∃ v, e.Holds v ∧ v.xHi = q.xHi) ∧
    (∃ v, e.Holds v ∧ v.yLo = q.yLo) ∧ ∃ v, e.Holds v ∧ v.yHi = q.yHi

/-- The greatest probe speed of a record's entries (R142). -/
abbrev Evaluation.Fastest (e : Evaluation) (n : Nat) : Prop :=
  e.tool.speed ≤ n ∧ (∀ b, e.elbow = some b → b.speed ≤ n) ∧
  (n = e.tool.speed ∨ ∃ b, e.elbow = some b ∧ n = b.speed)

/-- What a trip record takes from the arm's evaluation record and missed count: the report count, the envelope
rectangle, and the speed of the probe named, or without a probe kind the greatest one; each but the missed count is
absent where the evaluation record is absent (R142). -/
abbrev TripRecord.Measures (r : TripRecord) (o : Option Evaluation) (missed : Nat) : Prop :=
  r.missed = missed ∧ r.count = o.map Evaluation.count ∧ (o = none → r.rect = none ∧ r.speed = none) ∧
  ∀ e, o = some e →
    e.Bounds r.rect ∧ (r.kind = some .tool → r.speed = some e.tool.speed) ∧
    (∀ b, r.kind = some .elbow → e.elbow = some b → r.speed = some b.speed) ∧
    (r.kind = none → ∃ n, r.speed = some n ∧ e.Fastest n)

/-- A tile of party C under the envelope of an arm (R138). -/
abbrev State.IntrudedAt (s : State) (x : Arm) (t : Tile) : Prop :=
  s.touches x t = true ∧ (s.tile t).owner = some .C

/-- Step 2 of a trip: each PENDING claim of the arm has left its slot and the queue, with CANCELLED of cause TRIP at
its port (R95, R133). -/
abbrev State.PendingCancelled (s u : State) (x : Arm) : Prop :=
  ∀ k, (s.slot x.party k).state = .pending →
    u.slot x.party k = .empty ∧ (⟨x.party, k⟩ : ClaimName) ∉ u.queue ∧
    Notice.cancelled k .trip ∈ (u.port x.party).attention

/-- The drain test at an evaluation `e` of an arm, from the state `u` that the Guard Controller leaves to the state `v`
after it. An OVERSPEED evaluation carries none. While the new cover holds a tile of the DRAINING source outside its
target, nothing changes; else the source is released, SHIFT_DONE names the target, and a grant scan follows (R39, R110 to
R112). Of several DRAINING sources, which no run has (R103), the lowest is tested. -/
abbrev State.DrainTested (u v : State) (x : Arm) (e : Evaluation) : Prop :=
  (e.result = some .overspeed → v = u) ∧
  (e.result ≠ some .overspeed →
    ((∀ k, (u.slot x.party k).state ≠ .draining) → v = u) ∧
    ∀ k r t q, u.slot x.party k = .draining r t → (∀ j < k, (u.slot x.party j).state ≠ .draining) →
      (u.slot x.party t).heldRect = some q →
      let stays := ∃ z, r.contains z = true ∧ q.contains z = false ∧ e.covers z = true
      (stays → v = u) ∧
      (¬stays → v = ((u.releaseSlot x.party k).1.raise x.party (.shiftDone t)).grantScan))

/-- A tile that a trip claim may take from no owner: free and OPEN (R135). -/
abbrev State.FreeOpen (s : State) (z : Tile) : Prop := (s.tile z).owner = none ∧ (s.tile z).service = .opened

/-- A tile of arm A's trip claim when a HALT builds arm B's: it was free, and B finds it owned (R140). -/
abbrev State.TakenBefore (s u : State) (x : Arm) (z : Tile) : Prop :=
  x = .B ∧ s.trippable .A = true ∧ z ∈ u.tripTiles .A

/-- A tile under the trip envelope of an arm that a trip claim does not take because another party has it, in a HALT
(R135, R140). -/
abbrev State.ContestedAtHalt (s u : State) (x : Arm) (z : Tile) : Prop :=
  s.touches x z = true ∧ (s.TakenBefore u x z ∨ ∃ p, (s.tile z).owner = some p ∧ p ≠ x.party)

/-- The tiles of an arm's trip claim gain a hold of the arm (R135). -/
abbrev State.TripTilesHeld (s u : State) (x : Arm) (ts : List Tile) : Prop :=
  ∀ z ∈ ts, u.tile z = { s.tile z with owner := some x.party, hold := (s.tile z).hold + 1 }

/-- What the trip of one arm in a HALT leaves: its guard state and permit, its record, measured from the evaluation
record as it stands, and its trip claim over the tiles of that record's cover that are the arm's own or free and OPEN
(R133 to R135, R140, R142). -/
abbrev State.HaltTripped (s u : State) (x : Arm) : Prop :=
  (u.arm x).guard.state = .tripped ∧ (u.arm x).guard.permit = false ∧ (u.arm x).guard.clean = 0 ∧
  (u.arm x).guard.joined = (s.arm x).guard.joined ∧
  (∃ r, (u.arm x).guard.trip = some r ∧ r.New .halt ∧ r.kind = none ∧ r.tile = none ∧
    r.Measures (s.arm x).evaluation (s.arm x).monitor.missed ∧ r.tileCount = (u.tripTiles x).length ∧
    (r.contested = true ↔ ∃ z, s.ContestedAtHalt u x z)) ∧
  (∀ z, z ∈ u.tripTiles x ↔ s.touches x z = true ∧
    ((s.tile z).owner = some x.party ∨ (s.FreeOpen z ∧ ¬s.TakenBefore u x z))) ∧
  (u.tripTiles x).Nodup ∧ s.TripTilesHeld u x (u.tripTiles x)

/-- A notice that a HALT may raise at a port: HALTED, CANCELLED of a claim that was PENDING, TRIPPED of the port's own arm,
and at the Cell Port ARM_TRIPPED and INTRUSION of an arm that it trips (R97, R138, R145, R152). -/
abbrev State.HaltRaises (s : State) (src : HaltSource) (p : Party) (n : Notice) : Prop :=
  n = .halted src ∨ (∃ k, (s.slot p k).state = .pending ∧ n = .cancelled k .halt) ∨
  ∃ x, s.trippable x = true ∧
    ((p = x.party ∧ n = .tripped .halt) ∨
      (p = .C ∧ (n = .armTripped x ∨ ∃ z, IsFirst (s.IntrudedAt x) z ∧ n = .intrusion x z)))

/-- The attention sets after a HALT. Arm A trips before arm B, so that ARM_TRIPPED and an INTRUSION name B where both arms
raise them. A notice that the HALT did not raise was there before, and a notice of another kind stays (R97, R138, R140,
R145, R152, R169). -/
abbrev State.HaltNotices (s u : State) (src : HaltSource) : Prop :=
  (∀ p, Notice.halted src ∈ (u.port p).attention ∧ (u.port p).line = true) ∧
  (∀ p k, (s.slot p k).state = .pending → Notice.cancelled k .halt ∈ (u.port p).attention) ∧
  (∀ x, s.trippable x = true → Notice.tripped .halt ∈ (u.port x.party).attention) ∧
  (s.trippable .B = true → Notice.armTripped .B ∈ (u.port .C).attention) ∧
  (s.trippable .A = true → s.trippable .B = false → Notice.armTripped .A ∈ (u.port .C).attention) ∧
  (∀ x z, s.trippable x = true → IsFirst (s.IntrudedAt x) z →
    (x = .A → s.trippable .B = false ∨ ¬∃ w, s.IntrudedAt .B w) →
    Notice.intrusion x z ∈ (u.port .C).attention) ∧
  (∀ p, ∀ n ∈ (u.port p).attention, n ∈ (s.port p).attention ∨ s.HaltRaises src p n) ∧
  ∀ p, ∀ n ∈ (s.port p).attention, (∀ m, s.HaltRaises src p m → m.code ≠ n.code) → n ∈ (u.port p).attention

/-- What the cancellation and the releases of an EVICT leave, before its one grant scan: every claim of the arm is gone,
its tiles have no owner, the CLOSING ones among them are BLOCKED with the closing-tile count and its BLOCK_DONE, and
CANCELLED is raised for its PENDING claim; nothing else changes (R15, R16, R69, R96, R115, R127). -/
abbrev State.EvictedClaims (s w : State) (x : Arm) : Prop :=
  let n := countTiles fun t => (s.tile t).owner == some x.party && (s.tile t).service == .closing
  (∀ k, w.slot x.party k = .empty) ∧ (∀ p k, p ≠ x.party → w.slot p k = s.slot p k) ∧
  w.tripTiles x = [] ∧ w.tripTiles x.other = s.tripTiles x.other ∧
  w.queue = s.queue.filter (fun m => m.party ≠ x.party) ∧
  (∀ t, w.tile t =
    if (s.tile t).owner = some x.party then
      ⟨if (s.tile t).service = .closing then .blocked else (s.tile t).service, (s.tile t).speedClass, none, 0⟩
    else s.tile t) ∧
  w.closing = s.closing - n ∧
  w.portC = (if 0 < s.closing ∧ s.closing ≤ n then s.portC.raise .blockDone else s.portC) ∧
  (∀ k, (s.slot x.party k).state = .pending → w.port x.party = (s.port x.party).raise (.cancelled k .evict)) ∧
  ((∀ k, (s.slot x.party k).state ≠ .pending) → w.port x.party = s.port x.party) ∧
  w.port x.other.party = s.port x.other.party ∧
  w = { s with tiles := w.tiles, closing := w.closing, claims := w.claims, queue := w.queue, portA := w.portA,
               portB := w.portB, portC := w.portC }

/-- What a HALT event, by request or by the line, leaves of a state that was GUARDING: the PENDING claims cancelled, every
ARMING or LIVE arm tripped with its trip claim, arm A before arm B, and the notices of both (R97, R134, R135, R140, R145,
R152). -/
abbrev State.HaltedFrom (s u : State) (src : HaltSource) : Prop :=
  u.mode = .halted ∧ u.queue = [] ∧
  (∀ p k, u.slot p k = if (s.slot p k).state = .pending then .empty else s.slot p k) ∧
  (∀ x, s.trippable x = true → s.HaltTripped u x) ∧
  (∀ x, s.trippable x = false → (u.arm x).guard = (s.arm x).guard ∧ u.tripTiles x = s.tripTiles x) ∧
  (∀ x, (u.arm x).monitor = (s.arm x).monitor ∧ (u.arm x).evaluation = (s.arm x).evaluation) ∧
  (∀ z, (∀ x, s.trippable x = true → z ∉ u.tripTiles x) → u.tile z = s.tile z) ∧
  s.HaltNotices u src ∧
  u = { s with mode := u.mode, queue := u.queue, claims := u.claims, armA := u.armA, armB := u.armB, tiles := u.tiles,
               portA := u.portA, portB := u.portB, portC := u.portC } ∧
  ∀ p, s.ExchangeKept u p

/-- A tile in the stopping envelope of a probe as R2 and R4 place it: the closed x interval meets the tile's columns,
and the closed y interval its rows, the lowest row taking everything south of it and the highest everything north. -/
abbrev Params.Meets (ps : Params) (e : Envelope) (t : Tile) : Prop :=
  (t.col.val : Int) * ps.pitch ≤ e.xHi ∧ e.xLo < ((t.col.val : Int) + 1) * ps.pitch ∧
  (t.row.val = 0 ∨ (t.row.val : Int) * ps.pitch ≤ e.yHi) ∧
  (t.row.val + 1 = ps.nrow ∨ e.yLo < ((t.row.val : Int) + 1) * ps.pitch)

end Sys2Proof.Machine
end

