-- ==== Sys2Proof/Certificates/Slice0/Obligations.lean ====
section
/-! DEFINITION. The statements about the model, for the provers. -/

section

open Sys2Proof Sys2Proof.Machine

/-! ### The step, idling and reset -/

/-- A step runs the command at the front of the queue on the state with the queue's rest. -/
def Obligations.StepRunsFrontCommand : Prop :=
  ∀ (c : Instr) (rest : List Instr) (s : State), s.pending = c :: rest →
    step s = exec c { s with pending := rest }

/-- Every command answers a next state and leaves the queue of commands. Only the reset commands hold or free the part,
and only the halt-line commands move the HALT_N pin. -/
def Obligations.EveryCommandAnswers : Prop :=
  ∀ (c : Instr) (s : State), ∃ t, exec c s = .next t ∧ t.pending = s.pending ∧
    (t.held ≠ s.held → c = .reset ∨ c = .resetRelease) ∧
    (t.haltPinLow ≠ s.haltPinLow → c = .haltLineAssertion ∨ c = .haltLineRelease) ∧
    s.freeCount ≤ t.freeCount

/-- The model's choice (logs 6, 8 and 27): on an empty queue the report section of a request in processing is taken, that
of arm A's port first, so that other events may come before its command. With none, a due timer event is taken, arm A's
expiry before arm B's before that of the first claim of the queue that is due. A claim is due at WAIT_LIMIT, where that is
above 0, and else at YIELD_PATIENCE while its yield-asked flag is clear. With none due, 1 microsecond passes for every
running timer and every wait age, and nothing else changes. -/
def Obligations.IdleStep : Prop :=
  ∀ s : State, s.pending = [] →
    (∀ x rep, s.SectionDue x rep → (x = .B → ∀ r, ¬s.SectionDue .A r) →
      ∃ t, step s = .next t ∧ (∀ p, p ≠ x.party → s.ExchangeKept t p) ∧
        (t.port x.party).processing = (s.port x.party).processing ∧ (t.port x.party).reply = (s.port x.party).reply ∧
        (t.port x.party).shifted = (s.port x.party).shifted ∧
        let u := s.takeReport x.party (some rep)
        t = u.setPort x.party { u.port x.party with reported := true }) ∧
    ((∀ x rep, ¬s.SectionDue x rep) →
      ((s.arm .A).monitor.timer = some 0 → step s = exec (.reportPeriodExpiry .A) s) ∧
      ((s.arm .A).monitor.timer ≠ some 0 → (s.arm .B).monitor.timer = some 0 →
        step s = exec (.reportPeriodExpiry .B) s) ∧
      ((∀ x, (s.arm x).monitor.timer ≠ some 0) →
        let expired := fun w : Waiter => 0 < s.params.waitLimit ∧ s.params.waitLimit * 1000 ≤ w.wait.age
        let asks := fun w : Waiter => s.params.yieldPatience * 1000 ≤ w.wait.age ∧ w.wait.asked = false
        (∀ before w behind, s.waiters = before ++ w :: behind → (∀ v ∈ before, ¬expired v ∧ ¬asks v) →
          (expired w → step s = exec (.waitLimitExpiry w.name.party w.name.slot) s) ∧
          (¬expired w → asks w → step s = exec (.yieldTime w.name.party w.name.slot) s)) ∧
        ((∀ w ∈ s.waiters, ¬expired w ∧ ¬asks w) →
          ∃ t, step s = .next t ∧
            (∀ x, t.arm x =
              { s.arm x with
                monitor := { (s.arm x).monitor with timer := (s.arm x).monitor.timer.map fun n => n - 1 } }) ∧
            (∀ p k, t.slot p k =
              match s.slot p k with
              | .pending r w l => .pending r ⟨w.arrival, w.age + 1, w.asked⟩ l
              | c => c) ∧
            (∀ x, t.tripTiles x = s.tripTiles x) ∧
            t = { s with armA := t.armA, armB := t.armB, claims := t.claims })))

/-- After reset with HALT_N high (log 1): the values that the spec's tables give every block, and the laws of the device
hold of them. That the RESTARTED reply has the exception mark of that moment, the NORMALIZED mark clear and an empty
payload is the model's choice (log 23). -/
def Obligations.ResetValues : Prop :=
  State.reset.mode = .setup ∧ State.reset.epoch = 0 ∧ State.reset.closing = 0 ∧ State.reset.queue = [] ∧
  (∀ t, State.reset.tile t = ⟨.opened, 0, none, 0⟩) ∧
  (∀ p k, State.reset.slot p k = .empty) ∧ (∀ x, State.reset.tripTiles x = []) ∧
  (∀ x, State.reset.arm x = ⟨⟨none, none, 0, none⟩, none, ⟨.offline, false, 0, none, none⟩⟩) ∧
  (∀ p, (State.reset.port p).processing = none ∧ (State.reset.port p).reported = false ∧
    (State.reset.port p).attention = [] ∧ (State.reset.port p).line = false ∧
    (State.reset.port p).reply = .restarted (State.reset.replyBody p 0 0 ⟨.done, false, .empty⟩)) ∧
  ([1, 2, 3, 4, 5, 6, 7, 8, 9, 10, 17, 18, 19, 20, 21, 22, 23, 24, 25, 33, 34, 35, 36, 37, 38, 39, 40, 41].map
    State.reset.params.read =
    [8, 4, 500, 50, 2000, 500, 1000, 500, 100, 0, 150, 0, 10, 25, 2500, 50, 4, 1000, 3, 150, 0, 10, 25, 2500, 50, 4,
      1000, 3]) ∧
  State.reset.Lawful ∧ State.reset.NoneGrantable ∧ State.reset.NoCycle

/-- RESET holds every block at its reset values with the permit and attention lines off. RESET_RELEASE ends this: the
level of HALT_N is taken, a low level as an assertion with HALT_LINE in the Cell Port's set, and each buffer holds a
RESTARTED reply with the header of that moment. What else that reply holds and what RESET leaves alone are the model's
(logs 23 and 25). -/
def Obligations.ResetAndItsRelease : Prop :=
  (∀ s : State, ∃ t, exec .reset s = .next t ∧ t = t.blocksAtReset ∧ t.held = true ∧
    t.haltPinLow = s.haltPinLow ∧ t.pending = s.pending ∧
    (∀ x, (t.arm x).guard.permit = false) ∧ ∀ p, (t.port p).line = false) ∧
  ∀ s : State, s.held = true → s.mode = .setup →
    ∃ t, exec .resetRelease s = .next t ∧ t.held = false ∧ t.haltLevel = s.haltPinLow ∧
      (t.port .C).attention =
        (if s.haltPinLow = true then insertNotice (.haltLine .setup) (s.port .C).attention else (s.port .C).attention) ∧
      ((t.port .C).line = true ↔ s.haltPinLow = true ∨ (s.port .C).line = true) ∧
      (∀ p, (t.port p).reply = .restarted (t.replyBody p 0 0 ⟨.done, false, .empty⟩) ∧
        (t.port p).processing = (s.port p).processing ∧ (t.port p).reported = (s.port p).reported ∧
        (t.port p).shifted = (s.port p).shifted) ∧
      (∀ p, p ≠ .C → (t.port p).attention = (s.port p).attention ∧ (t.port p).line = (s.port p).line) ∧
      t = { s with held := false, haltLevel := t.haltLevel, portA := t.portA, portB := t.portB, portC := t.portC }

/-! ### The cell mode and the halt line (chapter 9) -/

/-- START and CLEAR_HALT, by the conditions of R150 and R154 in their order. -/
def Obligations.StartAndClearHalt : Prop :=
  ∀ (tag : BitVec 4) (s : State),
    (s.taken .C (.start tag) = true →
      (s.mode ≠ .setup →
        exec (.start tag) s = .next (s.placeReply .C tag 66 ⟨.wrongMode, false, .empty⟩)) ∧
      (s.mode = .setup → s.haltLevel = true →
        exec (.start tag) s = .next (s.placeReply .C tag 66 ⟨.causeActive, false, .empty⟩)) ∧
      (s.mode = .setup → s.haltLevel = false →
        ∃ e : Byte, (if s.epoch.toNat = 255 then e.toNat = 1 else e.toNat = s.epoch.toNat + 1) ∧
          exec (.start tag) s =
            .next ({ s with mode := .guarding, epoch := e }.placeReply .C tag 66 ⟨.done, false, .started e⟩))) ∧
    (s.taken .C (.clearHalt tag) = true →
      (s.mode ≠ .halted →
        exec (.clearHalt tag) s = .next (s.placeReply .C tag 69 ⟨.wrongMode, false, .empty⟩)) ∧
      (s.mode = .halted → s.haltLevel = true →
        exec (.clearHalt tag) s = .next (s.placeReply .C tag 69 ⟨.causeActive, false, .empty⟩)) ∧
      (s.mode = .halted → s.haltLevel = false →
        exec (.clearHalt tag) s =
          .next ({ s with mode := .guarding }.placeReply .C tag 69 ⟨.done, false, .empty⟩)))

/-- STOP: no change in SETUP; elsewhere every claim is cleared, both arms become OFFLINE, the mode becomes SETUP, and
STOPPED is raised at both Arm Ports, with BLOCK_DONE at the Cell Port where tiles were CLOSING. -/
def Obligations.StopReturnsToSetup : Prop :=
  ∀ (tag : BitVec 4) (s : State), s.taken .C (.stop tag) = true →
    (s.mode = .setup →
      exec (.stop tag) s = .next (s.placeReply .C tag 67 ⟨.done, false, .stopped .setup 0 0⟩)) ∧
    (s.mode ≠ .setup →
      ∃ (u : State) (claims : Nat), exec (.stop tag) s =
          .next (u.placeReply .C tag 67
            ⟨.done, false, .stopped s.mode claims (countTiles fun t => (s.tile t).service == .closing)⟩) ∧
        claims = ((parties.map fun p => slotNos.countP fun k => decide (s.slot p k ≠ .empty)).sum +
          [Arm.A, Arm.B].countP fun x => decide (s.tripTiles x ≠ [])) ∧
        u.mode = .setup ∧ u.queue = [] ∧ u.closing = 0 ∧
        (∀ p k, u.slot p k = .empty) ∧ (∀ x, u.tripTiles x = []) ∧
        (∀ t, u.tile t =
          ⟨if (s.tile t).service = .closing then .blocked else (s.tile t).service, (s.tile t).speedClass, none, 0⟩) ∧
        (∀ x, u.arm x =
          { monitor := { (s.arm x).monitor with timer := none }, evaluation := (s.arm x).evaluation,
            guard := { (s.arm x).guard with state := .offline, permit := false, clean := 0 } }) ∧
        u.portA = s.portA.raise (.stopped s.mode) ∧ u.portB = s.portB.raise (.stopped s.mode) ∧
        u.portC = (if 0 < s.closing then s.portC.raise .blockDone else s.portC) ∧
        u = { s with mode := u.mode, queue := u.queue, closing := u.closing, claims := u.claims, tiles := u.tiles,
                     armA := u.armA, armB := u.armB, portA := u.portA, portB := u.portB, portC := u.portC })

/-- HALT, and an assertion of the halt line in GUARDING: the cell goes to HALTED, every PENDING claim is cancelled, and
every ARMING or LIVE arm trips with cause HALT and its permit off, arm A before arm B. Its record is measured from its
last evaluation. Its trip claim takes the tiles of that evaluation's cover that are its own or free and OPEN, each with one
hold more, and the record counts them and says whether another party had a tile of the cover; a free tile under both arms
is A's and contested for B. Every port has HALTED, INTRUSION names a covered tile of C, and ARM_TRIPPED the arm tripped
last. -/
def Obligations.HaltStopsTheCell : Prop :=
  ∀ s : State, s.QueueLaw → s.mode = .guarding →
    (∀ tag, s.taken .C (.halt tag) = true →
      ∃ u : State, s.HaltedFrom u .request ∧
        exec (.halt tag) s =
          .next (u.placeReply .C tag 68
            ⟨.done, false, .halted s.queue.length ⟨s.trippable .A, s.trippable .B, false⟩⟩)) ∧
    (s.held = false →
      ∃ u : State, exec .haltLineAssertion s = .next u ∧ u.haltLevel = true ∧ u.haltPinLow = true ∧
        Notice.haltLine .guarding ∈ (u.port .C).attention ∧
        ({ s with haltPinLow := true, haltLevel := true }.raise .C (.haltLine .guarding)).HaltedFrom u .line)

/-- A fall of HALT_N outside GUARDING makes the level ASSERTED and raises HALT_LINE alone; a rise makes it RELEASED and
raises nothing. While the part is held in reset only the pin changes (log 2). -/
def Obligations.HaltLineOutsideGuarding : Prop :=
  ∀ s : State,
    (s.held = false → s.mode ≠ .guarding →
      exec .haltLineAssertion s =
        .next { s with haltPinLow := true, haltLevel := true, portC := s.portC.raise (.haltLine s.mode) }) ∧
    (s.held = false → exec .haltLineRelease s = .next { s with haltPinLow := false, haltLevel := false }) ∧
    (s.held = true →
      exec .haltLineAssertion s = .next { s with haltPinLow := true } ∧
      exec .haltLineRelease s = .next { s with haltPinLow := false })

/-- A request of the wrong mode is refused WRONG_MODE whatever its other contents, after the report it carries. -/
def Obligations.WrongModeComesFirst : Prop :=
  ∀ (c : Instr) (q : Request) (s : State), c.request = some q → s.taken q.port c = true →
    takenIn c s.mode = false →
    exec c s = .next ((s.afterReport q.port q.rep).placeReply q.port q.tag q.kind ⟨.wrongMode, false, .empty⟩)

/-- The 28 identifiers with their ranges. SET_PARAM stores the value of R159, the other parameters keep theirs, and the
code says whether the stored value is the value written. GET_PARAM answers the stored value of a known identifier in every
mode and changes nothing. -/
def Obligations.SetParamAndGetParam : Prop :=
  (∀ n lo hi, paramRange n = some (lo, hi) ↔
    (n, lo, hi) ∈ [(1, 2, 16), (2, 1, 8), (3, 100, 2000), (4, 0, 500), (5, 0, 60000), (6, 10, 60000), (7, 10, 4000),
      (8, 10, 4000), (9, 10, 4000), (10, 0, 1), (17, 0, 1000), (18, 0, 1000), (19, 1, 50), (20, 5, 200),
      (21, 100, 4000), (22, 10, 200), (23, 1, 16), (24, 250, 4000), (25, 1, 8), (33, 0, 1000), (34, 0, 1000),
      (35, 1, 50), (36, 5, 200), (37, 100, 4000), (38, 10, 200), (39, 1, 16), (40, 250, 4000), (41, 1, 8)]) ∧
  (∀ (tag : BitVec 4) (ident : Byte) (value : Word16) (s : State), s.taken .C (.setParam tag ident value) = true →
    (s.mode ≠ .setup →
      exec (.setParam tag ident value) s = .next (s.placeReply .C tag 64 ⟨.wrongMode, false, .empty⟩)) ∧
    (s.mode = .setup → paramRange ident.toNat = none →
      exec (.setParam tag ident value) s = .next (s.placeReply .C tag 64 ⟨.badParam, false, .empty⟩)) ∧
    (s.mode = .setup → ∀ lo hi, paramRange ident.toNat = some (lo, hi) →
      ∃ ps v, exec (.setParam tag ident value) s =
          .next ({ s with params := ps }.placeReply .C tag 64
            ⟨if v = value.toNat then .done else .clamped, false, .param ident v⟩) ∧
        (let w := if ident.toNat = 24 ∨ ident.toNat = 40 then value.toNat - value.toNat % 250 else value.toNat
         v = if w < lo then lo else if hi < w then hi else w) ∧
        ps.read ident.toNat = v ∧
        ∀ n, n ≠ ident.toNat → (paramRange n).isSome = true → ps.read n = s.params.read n)) ∧
  ∀ (tag : BitVec 4) (ident : Byte) (s : State), s.taken .C (.getParam tag ident) = true →
    (ident.toNat ∉ [1, 2, 3, 4, 5, 6, 7, 8, 9, 10, 17, 18, 19, 20, 21, 22, 23, 24, 25, 33, 34, 35, 36, 37, 38, 39, 40, 41] →
      exec (.getParam tag ident) s = .next (s.placeReply .C tag 65 ⟨.badParam, false, .empty⟩)) ∧
    (ident.toNat ∈ [1, 2, 3, 4, 5, 6, 7, 8, 9, 10, 17, 18, 19, 20, 21, 22, 23, 24, 25, 33, 34, 35, 36, 37, 38, 39, 40, 41] →
      ∃ v, exec (.getParam tag ident) s = .next (s.placeReply .C tag 65 ⟨.done, false, .param ident v⟩) ∧
        v = s.params.read ident.toNat ∧
        (ident.toNat = 10 → v = match s.params.tripScope with
          | .local_ => 0
          | .paired => 1))

/-! ### Exchanges and frames (chapter 10) -/

/-- Every taken request of any kind receives one reply with its tag and kind, whose header and attention entries are
those of the state left; the exchange side of every other port is as it was. This holds whether its report section has been
taken before or not. That no event comes between the command section and the reply is the model's choice (log 27). -/
def Obligations.EveryTakenRequestIsAnswered : Prop :=
  ∀ (c : Instr) (q : Request) (s : State), c.request = some q → s.taken q.port c = true →
    ∃ t b, exec c s = .next t ∧ (t.port q.port).processing = none ∧ (t.port q.port).reported = false ∧
      (t.port q.port).reply = .normal b ∧ (t.port q.port).shifted = (s.port q.port).shifted ∧
      b.tag = q.tag ∧ b.kind = q.kind ∧ b.mode = t.mode ∧ b.epoch = t.epoch ∧ b.lineAsserted = t.haltLevel ∧
      b.status = t.status q.port ∧ b.attention = (t.port q.port).attention ∧
      (b.exception = true ↔ ∃ n ∈ (t.port q.port).attention, n.isException = true) ∧
      ∀ p, p ≠ q.port → s.ExchangeKept t p

/-- The model's choice (log 5): an event that cannot happen changes nothing. These are a request that its port has not
taken, an overrun or a frame refusal with no request in processing, an exchange end while one is in processing, the
expiry of a stopped timer, a limit or a yield time of a claim that is not PENDING, and a release of a part not held. -/
def Obligations.EventsThatCannotHappen : Prop :=
  ∀ s : State,
    (∀ c q, c.request = some q → s.taken q.port c = false → exec c s = .next s) ∧
    (∀ p f, (s.port p).processing = none → exec (.overrun p f) s = .next s) ∧
    (∀ p, (s.port p).processing = none → exec (.frameCheckRefusal p) s = .next s) ∧
    (∀ p f, s.held = false → (s.port p).processing.isSome = true → exec (.exchangeEnd p f) s = .next s) ∧
    (∀ x, (s.arm x).monitor.timer = none → exec (.reportPeriodExpiry x) s = .next s) ∧
    (∀ p k, (s.slot p k).state ≠ .pending →
      exec (.waitLimitExpiry p k) s = .next s ∧ exec (.yieldTime p k) s = .next s) ∧
    (s.held = false → exec .resetRelease s = .next s)

/-- EXCHANGE_END with no request in processing: the port has shifted out the reply buffer's bytes in order, then bytes
of value 0, most significant bit first, and the request clocked is taken unless the exchange was empty. While the part is
held in reset nothing is taken, and what is shifted out is free (log 3). What was shifted out stands in the model's own
record (log 4), and that the bits of an unfinished byte are shifted out with it is the model's choice (log 26); so is that
an exchange which begins while the part is held and ends after it is taken whole (log 29). -/
def Obligations.ExchangeEndTakesTheRequest : Prop :=
  ∀ (p : Party) (f : Frame) (s : State), (s.port p).processing = none →
    (s.held = false →
      ∃ t, exec (.exchangeEnd p f) s = .next t ∧
        t = s.setPort p
          { s.port p with
            processing := (t.port p).processing, reported := (t.port p).reported, shifted := (t.port p).shifted } ∧
        ((t.port p).processing ≠ none → (t.port p).reported = false) ∧
        ((t.port p).processing = none → (t.port p).reported = (s.port p).reported) ∧
        (t.port p).processing = (if f.bytes = [] ∧ f.extra = [] then none else some f) ∧
        (t.port p).shifted.bytes.length = f.bytes.length ∧
        (∀ i, i < f.bytes.length → (t.port p).shifted.bytes[i]? = some ((s.port p).reply.bytes.getD i 0)) ∧
        (t.port p).shifted.extra.length = f.extra.length ∧
        ∀ j, j < f.extra.length →
          (t.port p).shifted.extra[j]? = some (((s.port p).reply.bytes.getD f.bytes.length 0).getLsbD (7 - j))) ∧
    (s.held = true →
      ∃ t, exec (.exchangeEnd p f) s = .next t ∧
        t = { s.setPort p { s.port p with shifted := (t.port p).shifted } with freeCount := t.freeCount } ∧
        (t.port p).shifted.bytes.length = f.bytes.length ∧
        ∀ i, i < f.bytes.length → (t.port p).shifted.bytes[i]? = some (Config.heldByte (s.freeCount + i)))

/-- OVERRUN: the five bytes of NOT_READY, with the tag and kind of the request in processing, then bytes of value 0, are
shifted out; PORT_FAULT is raised; the request clocked is discarded and the one in processing is not disturbed. That
PORT_FAULT is raised before the reply of that request is placed, also where the exchange outlasts its processing, is the
model's choice (log 31). -/
def Obligations.OverrunAnswersNotReady : Prop :=
  ∀ (p : Party) (f g : Frame) (s : State), (s.port p).processing = some g →
    ∃ t, exec (.overrun p f) s = .next t ∧
      t = s.setPort p { (s.port p).raise .portFault with shifted := (t.port p).shifted } ∧
      (t.port p).shifted.bytes.length = f.bytes.length ∧
      let tag : Byte := BitVec.ofNat 8 g.tag.toNat
      ∀ i, i < f.bytes.length →
        (t.port p).shifted.bytes[i]? =
          some (([1, 5, tag, g.kindByte, 1 ^^^ 5 ^^^ tag ^^^ g.kindByte] : List Byte).getD i 0)

/-- FRAME_CHECK_REFUSAL: the checks of R165 in their order on a taken request; its reply carries the refusal with the
kind byte and the low four bits of the tag byte as received, and nothing else changes: its report is discarded. -/
def Obligations.FrameChecksRefuse : Prop :=
  ∀ (p : Party) (f : Frame) (s : State), (s.port p).processing = some f →
    let n := (f.bytes.getD 2 0).toNat
    let body := (f.bytes.drop 3).take n
    let refusal := fun code : Result =>
      exec (.frameCheckRefusal p) s =
        .next (s.placeReply p ((f.bytes.getD 1 0).extractLsb' 0 4) (f.bytes.getD 0 0) ⟨code, false, .empty⟩)
    let clocked := f.extra = [] ∧ 4 ≤ f.bytes.length ∧ n ≤ 60 ∧ n + 4 ≤ f.bytes.length
    let checked := clocked ∧ xorAll (f.bytes.take (n + 4)) = 0
    let kindOk := kindAccepted p (f.bytes.getD 0 0) = true
    (f.extra ≠ [] → refusal .badFrame) ∧
    (f.bytes.length < 4 → refusal .badFrame) ∧
    (60 < n ∨ f.bytes.length < n + 4 → refusal .badFrame) ∧
    (clocked → xorAll (f.bytes.take (n + 4)) ≠ 0 → refusal .badCheck) ∧
    (checked → ¬kindOk → refusal .badKind) ∧
    (checked → kindOk → (f.bytes.getD 1 0).getLsbD 7 = true →
      p = .C ∨ 2 < (body.getD 0 0).toNat % 16 ∨ n < 1 + 9 * ((body.getD 0 0).toNat % 16) → refusal .badFrame) ∧
    (checked → kindOk →
      (∀ rep command, splitReport p (f.bytes.getD 1 0) body = some (rep, command) →
        commandOf p (f.bytes.getD 0 0) ((f.bytes.getD 1 0).extractLsb' 0 4) rep command = none) →
      refusal .badFrame)

/-- The frame of every well-formed request, with any fill bytes after it, passes the frame checks at its port and spells
that request with every operand it carries. -/
def Obligations.DecodeOfEncodedFrame : Prop :=
  ∀ (c : Instr) (fill : List Byte), c.wf = true → c.request.isSome = true →
    ∃ q f, c.request = some q ∧ encodeFrame c = some f ∧
      decodeFrame q.port ⟨f.bytes ++ fill, []⟩ = .accepted c

/-- A frame that passes the frame checks spells a well-formed request of its port, and every byte of it was read: its
kind, its tag, whether it carries a report, and its whole body. -/
def Obligations.AcceptedFrameSpellsItsRequest : Prop :=
  ∀ (p : Party) (f : Frame) (c : Instr), decodeFrame p f = .accepted c →
    c.wf = true ∧ f.extra = [] ∧
    ∃ q, c.request = some q ∧ q.port = p ∧ f.bytes[0]? = some q.kind ∧
      (∃ b, f.bytes[1]? = some b ∧ b.toNat % 16 = q.tag.toNat ∧ (128 ≤ b.toNat ↔ q.rep.isSome = true)) ∧
      (∃ n, f.bytes[2]? = some n ∧ n.toNat = q.bodyBytes.length ∧ n.toNat ≤ 60) ∧
      (f.bytes.drop 3).take q.bodyBytes.length = q.bodyBytes ∧
      xorAll (f.bytes.take (q.bodyBytes.length + 4)) = 0

/-- A frame that passes the frame checks is refused BAD_CHECK when any one of its bytes but the body length is another. -/
def Obligations.CorruptedByteIsRefused : Prop :=
  ∀ (p : Party) (f : Frame) (c : Instr) (i : Nat) (b : Byte), decodeFrame p f = .accepted c →
    i < (f.bytes.getD 2 0).toNat + 4 → i ≠ 2 → b ≠ f.bytes.getD i 0 →
    decodeFrame p ⟨f.bytes.set i b, []⟩ = .refused .badCheck

/-- A reply's bytes: the reply kind, the length of the whole reply, the fields in the order and with the codes of the
tables of R166 to R169, and a check byte that makes the XOR of all 0. An attention entry is its kind code and its detail
in four bytes; the details whose codes are log 15 are left open here. The status block is that of the port's own arm, or
of the cell. A payload is its items in the order of their rule and in the widths of R166: a number, a code and a flag in
one byte, a tile as column and row, a rectangle as its four bounds, a tile record in four bytes with owner 3 for NONE, a
parameter value, a wait age and a speed in two, an envelope end in four, a set of parties by its bits, an absent item as
its presence byte and zeros. Items that logs 13 to 15 decide are left open. -/
def Obligations.ReplyFraming : Prop :=
  let num := fun n : Nat => (BitVec.ofNat 8 n : Byte)
  let bit := fun b : Bool => if b = true then (1 : Byte) else 0
  let guardCode := fun g : GuardState => match g with
    | .offline => (0 : Byte)
    | .arming => 1
    | .live => 2
    | .tripped => 3
  let slotCode := fun st : SlotState => match st with
    | .empty => (0 : Byte)
    | .pending => 1
    | .held => 2
    | .draining => 3
  let modeCode := fun m : Mode => match m with
    | .setup => (0 : Byte)
    | .guarding => 1
    | .halted => 2
  let armCode := fun x : Arm => match x with
    | .A => (0 : Byte)
    | .B => 1
  let partyCode := fun p : Party => match p with
    | .A => (0 : Byte)
    | .B => 1
    | .C => 2
  let causes : List (Cause × Byte) := [(.overspeed, 1), (.farSide, 2), (.foreign, 3), (.blocked, 4), (.unclaimed, 5),
    (.zoneSpeed, 6), (.stale, 7), (.halt, 8), (.foreignContact, 9), (.farContact, 10)]
  let results : List (Result × Byte) := [(.done, 0), (.queued, 1), (.granted, 2), (.closing, 3), (.clamped, 4),
    (.badFrame, 16), (.badCheck, 17), (.badKind, 18), (.wrongMode, 19), (.notJoined, 20), (.staleGeometry, 21),
    (.badRect, 22), (.protected_, 23), (.tableFull, 24), (.pendingExists, 25), (.cycle, 26), (.noSuchClaim, 27),
    (.occupied, 28), (.notShiftable, 29), (.armTripped, 30), (.causeActive, 31), (.holding, 32), (.notTripped, 33),
    (.badParam, 34)]
  let two := fun n : Nat => [num (n / 256), num n]
  let rect := fun r : Rect => [num r.col0, num r.col1, num r.row0, num r.row1]
  let setOf := fun w : PartySet => bit w.a ||| bit w.b <<< 1 ||| bit w.c <<< 2
  let item := fun (width : Nat) (o : Option (List Byte)) => match o with
    | some l => (1 : Byte) :: l
    | none => 0 :: List.replicate width 0
  let record := fun r : TileRecord =>
    [match r.service with
      | .opened => (0 : Byte)
      | .blocked => 1
      | .closing => 2,
    num r.speedClass.val,
    match r.owner with
      | some p => partyCode p
      | none => 3,
    num r.hold]
  let kindCode := fun k : ProbeKind => match k with
    | .tool => (1 : Byte)
    | .elbow => 2
  (∀ b : ReplyBody, b.bytes.length + 3 ≤ 255 →
    let status := match b.status with
      | .arm g p c m slots => [guardCode g, bit p, num c, num m] ++ slots.map slotCode
      | .cell ga gb pa pb slots n =>
        [guardCode ga, guardCode gb, bit pa ||| bit pb <<< 1] ++ slots.map slotCode ++ [num n]
    (∀ r, r = Reply.normal b ∨ r = Reply.restarted b →
      r.bytes.length = b.bytes.length + 3 ∧ (∃ n, r.bytes[1]? = some n ∧ n.toNat = r.bytes.length) ∧
      xorAll r.bytes = 0 ∧ (r.bytes.drop 2).take b.bytes.length = b.bytes ∧
      (∃ n, r.bytes[2]? = some n ∧ n.toNat = b.tag.toNat) ∧ r.bytes[3]? = some b.kind ∧
      (∃ c, r.bytes[4]? = some c ∧ (b.result, c) ∈ results) ∧
      r.bytes[5]? = some (bit b.exception ||| bit b.normalized <<< 1 ||| bit b.lineAsserted <<< 2) ∧
      r.bytes[6]? = some (modeCode b.mode) ∧ r.bytes[7]? = some b.epoch ∧
      ∃ check, r.bytes.drop 8 =
        status ++ num b.attention.length :: b.attention.flatMap Notice.bytes ++
          num b.payload.bytes.length :: b.payload.bytes ++ [check]) ∧
    (Reply.normal b).bytes[0]? = some 0 ∧ (Reply.restarted b).bytes[0]? = some 2 ∧
    (counted b.attention Notice.bytes).length = 1 + 4 * b.attention.length) ∧
  (∀ n : Notice, n.bytes.length = 4 ∧ n.bytes[0]? = some (num n.code)) ∧
  (∀ k : SlotNo,
    Notice.bytes (.granted k) = [1, num k.val, 0, 0] ∧ Notice.bytes (.expired k) = [2, num k.val, 0, 0] ∧
    (∀ t, Notice.bytes (.withdrawn k t) = [3, num k.val, num t.col.val, num t.row.val]) ∧
    Notice.bytes (.cancelled k .trip) = [4, num k.val, 0, 0] ∧
    Notice.bytes (.cancelled k .evict) = [4, num k.val, 1, 0] ∧
    Notice.bytes (.cancelled k .halt) = [4, num k.val, 2, 0] ∧
    (∀ p, Notice.bytes (.yield p k) = [5, partyCode p, num k.val, 0]) ∧
    Notice.bytes (.shiftDone k) = [6, num k.val, 0, 0]) ∧
  (∀ c : BitVec 4, Notice.bytes (.live c) = [7, num c.toNat, 0, 0]) ∧
  (∀ c, ∃ b, Notice.bytes (.tripped c) = [8, b, 0, 0] ∧ (c, b) ∈ causes) ∧
  (∀ g, Notice.bytes (.evicted g) = [9, guardCode g, 0, 0]) ∧
  (∀ m, Notice.bytes (.stopped m) = [10, modeCode m, 0, 0] ∧ Notice.bytes (.haltLine m) = [17, modeCode m, 0, 0]) ∧
  (∀ src, (Notice.halted src).code = 11) ∧ Notice.portFault.code = 12 ∧
  (∀ why c, (Notice.reportRefused why c).code = 13) ∧
  (∀ x, Notice.bytes (.armTripped x) = [14, armCode x, 0, 0] ∧
    ∀ t, Notice.bytes (.intrusion x t) = [15, armCode x, num t.col.val, num t.row.val]) ∧
  Notice.bytes .blockDone = [16, 0, 0, 0] ∧
  (Payload.bytes .empty = [] ∧
    (∀ codes, Payload.bytes (.removed codes) = num codes.length :: codes.map num) ∧
    (∀ recs, ∃ count, Payload.bytes (.row recs) = count ++ recs.flatMap record ∧ count.length ≤ 1) ∧
    (∀ m n, Payload.bytes (.rowWritten m n) = [num m, num n] ∧ Payload.bytes (.blocked m n) = [num m, num n] ∧
      Payload.bytes (.unblocked n) = [num n] ∧ Payload.bytes (.holdingSlot n) = [num n] ∧
      Payload.bytes (.holdingTiles n) = [num n]) ∧
    (∀ ident n, Payload.bytes (.param ident n) = ident :: two n) ∧
    (∀ t : Tile, Payload.bytes (.tile t) = [num t.col.val, num t.row.val]) ∧
    (∀ k r w, Payload.bytes (.claimGranted k r) = num k.val :: rect r ∧
      Payload.bytes (.claimQueued k r w) = num k.val :: rect r ++ [setOf w]) ∧
    (∀ t k r w, Payload.bytes (.shiftQueued t k r w) = [num t.val, num k.val] ++ rect r ++ [setOf w]) ∧
    (∀ t k r o n, ∃ outcome, Payload.bytes (.shiftGranted t k r o n) =
      [num t.val, num k.val] ++ rect r ++ [outcome, num n]) ∧
    (∀ k st n, Payload.bytes (.released k st n) = [num k, slotCode st, num n]) ∧
    (∀ g, Payload.bytes (.left g) = [guardCode g] ∧ ∀ e, Payload.bytes (.joined (some e) g) = [e, guardCode g]) ∧
    (∀ e, Payload.bytes (.started e) = [e]) ∧
    (∀ m c n, Payload.bytes (.stopped m c n) = [modeCode m, num c, num n]) ∧
    (∀ x g c n, Payload.bytes (.evicted x g c n) = [armCode x, guardCode g, num c, num n]) ∧
    (∀ n arms, ∃ tail, Payload.bytes (.halted n arms) = num n :: tail) ∧
    (∀ c, ∃ b, Payload.bytes (.tripCleared (some c)) = [b] ∧ (c, b) ∈ causes)) ∧
  (∀ views, Payload.bytes (.queue views) = num views.length :: views.flatMap QueueView.bytes ∧
    ∀ v : QueueView, ∃ target, v.bytes = [partyCode v.name.party, num v.name.slot.val] ++ rect v.rect ++ target ++
      two v.waitAge ++ [bit v.asked, setOf v.waitsOn]) ∧
  (∀ views, ∃ count, Payload.bytes (.claims views) = count ++ views.flatMap ClaimView.bytes ∧ count.length ≤ 1 ∧
    ∀ v : ClaimView, ∃ kind tiles, v.bytes = slotCode v.state :: kind ++ item 4 (v.rect.map rect) ++ tiles ++
        item 1 (v.position.map fun n => [num n]) ++ item 2 (v.waitAge.map two) ++
        item 1 (v.asked.map fun b => [bit b]) ++ item 1 (v.link.map fun k => [num k.val]) ∧
      (v.trip = none → kind = [0, 0]) ∧ (v.trip ≠ none → ∃ b, kind = [1, b])) ∧
  (∀ v : ArmView, ∃ joined report count rest,
    Payload.bytes (.arm v) = guardCode v.state :: joined ++ report ++ count ++ num v.missed :: rest ∧
    (∀ e, v.joined = some e → joined = [1, e]) ∧ (∀ rep, v.lastReport = some rep → report = 1 :: rep.bytes) ∧
    ∀ c, v.lastCount = some c → count = [1, num c.toNat]) ∧
  (∀ i : Int, ∃ b3 b2 b1 b0 : Byte, bytes4 i = [b3, b2, b1, b0] ∧ b3 ++ b2 ++ b1 ++ b0 = BitVec.ofInt 32 i) ∧
  Payload.bytes (.trip none) = [0] ∧
  (∀ t : TripRecord, ∃ cause envelope, (t.cause, cause) ∈ causes ∧
    Payload.bytes (.trip (some t)) = [1, bit t.cleared, cause] ++ item 1 (t.kind.map fun k => [kindCode k]) ++
      item 2 (t.tile.map fun z => [num z.col.val, num z.row.val]) ++ envelope ++
      item 1 (t.count.map fun c => [num c.toNat]) ++ num t.missed :: item 2 (t.speed.map two) ++
      [bit t.contested, bit t.secondBreach, num t.tileCount] ∧
    ∀ e, t.rect = some e → ∃ p q r, envelope =
        1 :: bytes4 e.xLo ++ p ++ bytes4 e.xHi ++ q ++ bytes4 e.yLo ++ r ++ bytes4 e.yHi ∧
      ∀ l ∈ [p, q, r], l = [] ∨ l = [1]) ∧
  ∀ s : State,
    (∀ x, s.status x.party =
      .arm (s.arm x).guard.state (s.arm x).guard.permit (s.arm x).guard.clean (s.arm x).monitor.missed
        (([0, 1, 2, 3] : List SlotNo).map (fun k => (s.slot x.party k).state) ++
          [if s.tripTiles x = [] then .empty else .held])) ∧
    s.status .C =
      .cell s.armA.guard.state s.armB.guard.state s.armA.guard.permit s.armB.guard.permit
        (([0, 1, 2, 3] : List SlotNo).map fun k => (s.slot .C k).state) s.closing

/-- ACK removes from its own port's set the kinds listed, the line is on while the set is not empty, and the reply lists
the kinds removed, in ascending code order where the set is in order, as the attention law says it always is. -/
def Obligations.AckRemovesListedKinds : Prop :=
  ∀ (p : Party) (tag : BitVec 4) (rep : Option Report) (codes : List Byte) (s : State),
    s.taken p (.ack p tag rep codes) = true →
    let s1 := s.afterReport p rep
    ∃ left line removed,
      exec (.ack p tag rep codes) s =
        .next ((s1.setPort p { s1.port p with attention := left, line := line }).placeReply p tag 2
          ⟨.done, false, .removed removed⟩) ∧
      left.Sublist (s1.port p).attention ∧
      (∀ n, n ∈ left ↔ n ∈ (s1.port p).attention ∧ ∀ c ∈ codes, c.toNat ≠ n.code) ∧
      (line = true ↔ left ≠ []) ∧
      removed.Sublist ((s1.port p).attention.map Notice.code) ∧
      (s.AttentionLaw p → removed.Pairwise (· < ·)) ∧
      ∀ k, k ∈ removed ↔ (∃ n ∈ (s1.port p).attention, n.code = k) ∧ ∃ c ∈ codes, c.toNat = k

/-! ### Reports (chapter 3) -/

/-- The report that a request carries, whatever the request, is tested in the order of R44: an empty one and a repeated
one change nothing, a refused one raises REPORT_REFUSED alone, any other is fresh. A request without a report, and the Cell
Port, leave the Report Monitors alone. Once the report section has been taken, it is not taken again. NOP does nothing
else, and answers DONE on the state that its report leaves. The statements of ACK, READ_ROW, JOIN, LEAVE, CLEAR_TRIP,
READ_TRIP, CLAIM, SHIFT and RELEASE start from that same state, `s.afterReport`. -/
def Obligations.NopTestsItsReport : Prop :=
  (∀ (p : Party) (tag : BitVec 4) (s : State), s.taken p (.nop p tag none) = true →
    exec (.nop p tag none) s = .next (s.placeReply p tag 1 ⟨.done, false, .empty⟩)) ∧
  (∀ (x : Arm) (tag : BitVec 4) (rep : Report) (s : State), s.taken x.party (.nop x.party tag (some rep)) = true →
    exec (.nop x.party tag (some rep)) s =
      .next ((s.afterReport x.party (some rep)).placeReply x.party tag 1 ⟨.done, false, .empty⟩)) ∧
  (∀ (p : Party) (rep : Option Report) (s : State),
    ((s.port p).reported = false → s.afterReport p rep = s.takeReport p rep) ∧
    ((s.port p).reported = true → s.afterReport p rep = s)) ∧
  (∀ (p : Party) (s : State), s.takeReport p none = s) ∧
  (∀ (rep : Option Report) (s : State), s.takeReport .C rep = s) ∧
  ∀ (x : Arm) (rep : Report) (s : State),
    let leaves := fun u : State => s.takeReport x.party (some rep) = u
    let elbow := 0 < (s.params.arm x).elbowRadius
    let elbowOk := ∃ q, rep.probes[1]? = some q ∧ q.kind = 2
    (rep.probes = [] → leaves s) ∧
    (∀ q more, rep.probes = q :: more →
      (q.kind ≠ 1 → leaves (s.raise x.party (.reportRefused .firstNotTool rep.count))) ∧
      (q.kind = 1 →
        (elbow → ¬elbowOk → leaves (s.raise x.party (.reportRefused .elbowMissing rep.count))) ∧
        ((elbow → elbowOk) →
          ((s.arm x).monitor.lastCount = some rep.count → leaves s) ∧
          ((s.arm x).monitor.lastCount ≠ some rep.count → leaves (s.freshReport x rep)))))

/-- A fresh report of an OFFLINE arm is stored with its count and does nothing else; a fresh report of a joined arm is
stored, sets the missed count to 0, restarts the timer and is evaluated with missed count 0. Its guard acts on the
evaluation: an ARMING one raises its clean count on a CLEAR evaluation at CREEP or slower, at REARM_COUNT becomes LIVE with
its permit on and LIVE raised, and else sets the count to 0; a LIVE one trips on a breach, a TRIPPED one notes it; and the
drain test of its DRAINING source follows. That a REARM_COUNT of 1 is no exception after an expiry is the model's choice
(log 28). -/
def Obligations.FreshReportIsStoredAndEvaluated : Prop :=
  ∀ (x : Arm) (rep : Report) (s : State),
    (s.guardState x = .offline →
      s.freshReport x rep =
        s.setMonitor x { (s.arm x).monitor with lastReport := some rep, lastCount := some rep.count }) ∧
    (s.guardState x ≠ .offline →
      ((s.freshReport x rep).arm x).monitor = ⟨some rep, some rep.count, 0, some (s.params.arm x).reportPeriod⟩ ∧
      (∀ q more, rep.probes = q :: more →
        let e := s.evaluateProbes x rep.count 0 q (if 0 < (s.params.arm x).elbowRadius then more.head? else none)
        let g := (s.arm x).guard
        let a := s.params.arm x
        let clean := e.result = none ∧ e.tool.speed ≤ a.creep ∧ ∀ b, e.elbow = some b → b.speed ≤ a.creep
        let withGuard := fun h : Guard =>
          s.setArm x ⟨⟨some rep, some rep.count, 0, some (s.params.arm x).reportPeriod⟩, some e, h⟩
        ((s.freshReport x rep).arm x).evaluation = some e ∧
        ∃ u : State, u.DrainTested (s.freshReport x rep) x e ∧
          (s.guardState x = .arming →
            (clean → a.rearmCount ≤ g.clean + 1 →
              u = (withGuard { g with state := .live, permit := true, clean := g.clean + 1 }).raise x.party
                (.live rep.count)) ∧
            (clean → g.clean + 1 < a.rearmCount → u = withGuard { g with clean := g.clean + 1 }) ∧
            (¬clean → u = withGuard { g with clean := 0 })) ∧
          (s.guardState x = .live → e.result = none → u = withGuard g) ∧
          (∀ c, s.guardState x = .live → e.result = some c → u = (withGuard g).tripOwn x c) ∧
          (s.guardState x = .tripped → u = withGuard
            (if e.result.isSome = true then { g with trip := g.trip.map fun r => { r with secondBreach := true } }
              else g))) ∧
      ((s.freshReport x rep).arm x.other).monitor = (s.arm x.other).monitor ∧
      ((s.freshReport x rep).arm x.other).evaluation = (s.arm x.other).evaluation ∧
      s.ControlKept (s.freshReport x rep))

/-- An expiry of a running report-period timer raises the missed count, or holds it at STALE_LIMIT + 1, and restarts the
timer; an ARMING arm's clean count becomes 0. Up to STALE_LIMIT the last report is evaluated: a LIVE arm trips on a breach
and is left as it was on a CLEAR result, and a TRIPPED arm notes a second breach. A LIVE arm that reaches STALE_LIMIT + 1
trips with cause STALE on the stale evaluation; an arm held there does nothing more. The drain test follows each
evaluation. A LIVE arm without a last report, which no run has, trips STALE on its record as it stands (log 20). -/
def Obligations.ReportPeriodExpiry : Prop :=
  ∀ (x : Arm) (s : State) (left : Nat), (s.arm x).monitor.timer = some left →
    let limit := (s.params.arm x).staleLimit
    let m := (s.arm x).monitor
    let g := (s.arm x).guard
    let missed := if limit < m.missed then m.missed else m.missed + 1
    let after := fun (o : Option Evaluation) (h : Guard) =>
      s.setArm x ⟨{ m with missed := missed, timer := some (s.params.arm x).reportPeriod }, o, h⟩
    let stale := s.guardState x = .live ∧ m.missed = limit
    ∃ t, exec (.reportPeriodExpiry x) s = .next t ∧
      (t.arm x).monitor = { m with missed := missed, timer := some (s.params.arm x).reportPeriod } ∧
      (s.guardState x = .arming → (t.arm x).guard = { g with clean := 0 }) ∧
      (∀ rep, m.lastReport = some rep → missed ≤ limit → rep.probes ≠ [] →
        (t.arm x).evaluation = s.evaluate x rep missed) ∧
      (m.lastReport = none ∧ ¬stale ∨ limit < missed ∧ ¬stale →
        t = after (s.arm x).evaluation (if s.guardState x = .arming then { g with clean := 0 } else g)) ∧
      (stale →
        t.guardState x = .tripped ∧ (t.arm x).guard.permit = false ∧ (t.arm x).guard.clean = 0 ∧
        Notice.tripped .stale ∈ (t.port x.party).attention ∧
        ∃ r, (t.arm x).guard.trip = some r ∧ r.New .stale ∧ r.missed = limit + 1) ∧
      (∀ rep e, m.lastReport = some rep → s.evaluate x rep missed = some e → missed ≤ limit ∨ stale →
        (t.arm x).evaluation = some e ∧
        (s.guardState x = .live → e.result = none → missed ≤ limit →
          (t.arm x).guard = g ∧ t.tripTiles x = s.tripTiles x) ∧
        (∀ c, s.guardState x = .live → e.result = some c → missed ≤ limit →
          t.guardState x = .tripped ∧ (t.arm x).guard.permit = false ∧
          ∃ r, (t.arm x).guard.trip = some r ∧ r.New c ∧ r.missed = missed) ∧
        (s.guardState x = .tripped →
          (t.arm x).guard =
            (if e.result.isSome = true then { g with trip := g.trip.map fun r => { r with secondBreach := true } }
              else g) ∧
          t.tripTiles x = s.tripTiles x) ∧
        ∃ u : State, u.DrainTested t x e ∧
          (s.guardState x = .arming → u = after (some e) { g with clean := 0 }) ∧
          (s.guardState x = .live → missed ≤ limit → e.result = none → u = after (some e) g) ∧
          (∀ c, s.guardState x = .live → missed ≤ limit → e.result = some c → u = (after (some e) g).tripOwn x c) ∧
          (stale → u = (after (some e) g).tripOwn x .stale) ∧
          (s.guardState x = .tripped → u = after (some e) (t.arm x).guard)) ∧
      (t.arm x.other).monitor = (s.arm x.other).monitor ∧
      (t.arm x.other).evaluation = (s.arm x.other).evaluation ∧
      s.ControlKept t

/-! ### Stopping envelopes (chapter 2) -/

/-- The stop distance is the sum of the reaction and the braking term, each the least whole number at or above its
quotient; the inflation is such a number too; both are 0 at rest, and the inflation is 0 with no missed report. -/
def Obligations.StopDistanceAndInflation : Prop :=
  ∀ v reaction decel m period : Nat, 0 < decel →
    (∃ r b, stopDistance v reaction decel = r + b ∧
      (∀ k, r ≤ k ↔ v * reaction ≤ 100 * k) ∧ ∀ k, b ≤ k ↔ v ^ 2 ≤ 200 * decel * k) ∧
    (∀ k, inflation v m period ≤ k ↔ v * m * period ≤ 100000 * k) ∧
    stopDistance 0 reaction decel = 0 ∧ inflation 0 m period = 0 ∧ inflation v 0 period = 0

/-- The interval of each axis of a probe's envelope: the radius and the guard margin on both sides, the stop distance
and the inflation on the side of motion; and its bounds for every probe within VMAX under lawful parameters. -/
def Obligations.EnvelopeIntervals : Prop :=
  ∀ (ps : Params) (x : Arm) (r m : Nat) (q : Probe),
    let a := ps.arm x
    let e := ps.envelope a r m q
    let f : Int := r + ps.guardMargin
    let along := fun v : Int =>
      ((stopDistance v.natAbs a.reaction a.decel + inflation v.natAbs m a.reportPeriod : Nat) : Int)
    (e.xLo = q.sx - f - (if q.svx < 0 then along q.svx else 0)) ∧
    (e.xHi = q.sx + f + (if 0 < q.svx then along q.svx else 0)) ∧
    (e.yLo = q.sy - f - (if q.svy < 0 then along q.svy else 0)) ∧
    (e.yHi = q.sy + f + (if 0 < q.svy then along q.svy else 0)) ∧
    e.xLo + 2 * f ≤ e.xHi ∧ e.yLo + 2 * f ≤ e.yHi ∧
    (ps.Law → r ≤ 1000 → m ≤ a.staleLimit + 1 → q.speed ≤ a.vmax →
      f ≤ 1500 ∧
      ∀ i, i = (e.xLo, e.xHi) ∨ i = (e.yLo, e.yHi) →
        -53708 ≤ i.1 ∧ i.1 ≤ 32767 ∧ -32768 ≤ i.2 ∧ i.2 ≤ 53707)

/-- The cover of an envelope is exactly the set of active tiles that it meets, and the excursion flags say exactly that
it reaches beyond the west or the east edge; it covers no column exactly where it lies wholly beyond one of them. -/
def Obligations.CoverIsTheTilesMet : Prop :=
  ∀ (ps : Params) (a : ArmParams) (r m : Nat) (q : Probe), 0 < ps.pitch → 0 < ps.ncol → 0 < ps.nrow →
    let e := ps.envelope a r m q
    (∀ t, e.covers t = true ↔ ps.active t = true ∧ ps.Meets e t) ∧
    (e.west = true ↔ e.xLo < 0) ∧ (e.east = true ↔ (ps.ncol : Int) * ps.pitch ≤ e.xHi) ∧
    (e.cols = none ↔ e.xHi < 0 ∨ (ps.ncol : Int) * ps.pitch ≤ e.xLo) ∧
    e.rows.1 ≤ e.rows.2 ∧ e.rows.2 < ps.nrow

/-- The result of a probe whose envelope is computed: the far side, then a tile of another party, a BLOCKED tile, an
unclaimed tile, and a speed above the zone limit of a covered tile, with the first such tile in scan order; else CLEAR. -/
def Obligations.ProbeResultByPriority : Prop :=
  ∀ (s : State) (x : Arm) (e : Envelope) (speed : Nat),
    let res := s.probeResult x e speed
    let foreign := fun t => e.covers t = true ∧ ∃ p, (s.tile t).owner = some p ∧ p ≠ x.party
    let blocked := fun t => e.covers t = true ∧ (s.tile t).owner = none ∧ (s.tile t).service = .blocked
    let unclaimed := fun t => e.covers t = true ∧ (s.tile t).owner = none ∧ (s.tile t).service ≠ .blocked
    let limit := fun c : Fin 4 => [none, some s.params.zoneLimit1, some s.params.zoneLimit2, some s.params.zoneLimit3][c]
    let tooFast := fun t => e.covers t = true ∧ ∃ l, limit (s.tile t).speedClass = some l ∧ l < speed
    let far := match x with
      | .A => e.east = true
      | .B => e.west = true
    (far → res = (.breach .farSide, none)) ∧
    (¬far →
      (∀ t, IsFirst foreign t → res = (.breach .foreign, some t)) ∧
      ((¬∃ t, foreign t) →
        (∀ t, IsFirst blocked t → res = (.breach .blocked, some t)) ∧
        ((¬∃ t, blocked t) →
          (∀ t, IsFirst unclaimed t → res = (.breach .unclaimed, some t)) ∧
          ((¬∃ t, unclaimed t) →
            (∀ t, IsFirst tooFast t → res = (.breach .zoneSpeed, some t)) ∧
            ((¬∃ t, tooFast t) → res = (.clear, none))))))

/-- An evaluation within VMAX: CLEAR exactly where every evaluated probe is clear; otherwise the breach of highest
priority, of the TOOL where both probes have it, with that probe's tile; and the foreign owners are the other parties
that own covered tiles. A probe's entry holds its speed, its envelope for the radius and the missed count, and the result
of that envelope at that speed with its tile. -/
def Obligations.EvaluationResult : Prop :=
  ∀ (s : State) (x : Arm) (count : BitVec 4) (m : Nat) (tool : Probe) (elbow : Option Probe),
    tool.speed ≤ (s.params.arm x).vmax → (∀ q, elbow = some q → q.speed ≤ (s.params.arm x).vmax) →
    let a := s.params.arm x
    let e := s.evaluateProbes x count m tool elbow
    let entry := fun (radius : Nat) (q : Probe) =>
      let v := s.params.envelope a radius m q
      let res := s.probeResult x v q.speed
      (⟨q.speed, res.1, res.2, some v⟩ : ProbeEntry)
    let te := entry a.toolRadius tool
    e.tool = te ∧ e.elbow = elbow.map (entry a.elbowRadius) ∧
    ([.overspeed, .farSide, .foreign, .blocked, .unclaimed, .zoneSpeed].map Cause.priority = [1, 2, 3, 4, 5, 6]) ∧
    e.count = count ∧ e.missed = m ∧ e.retained = false ∧
    (e.result = none ↔ te.result = .clear ∧ ∀ b, e.elbow = some b → b.result = .clear) ∧
    (e.result = none → e.kind = none ∧ e.tile = none) ∧
    (∀ c, e.result = some c →
      (te.result = .breach c ∧ e.kind = some .tool ∧ e.tile = te.tile ∧
        (∀ b d, e.elbow = some b → b.result = .breach d → c.priority ≤ d.priority)) ∨
      (∃ b, e.elbow = some b ∧ b.result = .breach c ∧ e.kind = some .elbow ∧ e.tile = b.tile ∧
        ∀ d, te.result = .breach d → c.priority < d.priority)) ∧
    ∀ p, e.foreign.has p = true ↔ p ≠ x.party ∧ ∃ t, e.covers t = true ∧ (s.tile t).owner = some p

/-- An evaluation with a velocity component above VMAX is an OVERSPEED breach without tile or foreign owner, of the TOOL
where the TOOL is too fast and else of the ELBOW; no envelope is computed and those of the record are kept. It carries no
drain test: a LIVE arm trips and a TRIPPED one notes a second breach, and that is all. That the retained flag is set also
where no envelope was there to keep is the model's choice (log 12), and so is the clause on an OFFLINE arm, of which no
evaluation is made (log 20). -/
def Obligations.OverspeedKeepsTheEnvelope : Prop :=
  ∀ (s : State) (x : Arm) (count : BitVec 4) (m : Nat) (tool : Probe) (elbow : Option Probe),
    let a := s.params.arm x
    let fast := fun q : Probe => a.vmax < q.svx.natAbs ∨ a.vmax < q.svy.natAbs
    (fast tool ∨ ∃ q, elbow = some q ∧ fast q) →
    let e := s.evaluateProbes x count m tool elbow
    e.result = some .overspeed ∧ e.tile = none ∧ e.foreign = ⟨false, false, false⟩ ∧ e.retained = true ∧
    e.count = count ∧ e.missed = m ∧
    e.tool.speed = max tool.svx.natAbs tool.svy.natAbs ∧ (elbow = none → e.elbow = none) ∧
    (fast tool → e.kind = some .tool ∧ e.tool.result = .breach .overspeed) ∧
    (¬fast tool → e.kind = some .elbow ∧ e.tool.result = .notTested) ∧
    (∀ q, elbow = some q → ∃ b, e.elbow = some b ∧ b.speed = max q.svx.natAbs q.svy.natAbs ∧
      (fast q → b.result = .breach .overspeed) ∧ (¬fast q → b.result = .notTested)) ∧
    ((s.arm x).evaluation = none → ∀ t, e.covers t = false) ∧
    (∀ old, (s.arm x).evaluation = some old → e.tool.envelope = old.tool.envelope ∧
      ((elbow.isSome = old.elbow.isSome) → ∀ t, e.covers t = old.covers t)) ∧
    (s.guardState x = .offline → ∀ rep, rep.evaluated a = some (tool, elbow) → rep.count = count →
      s.evaluateReport x rep m .fresh = s.setEvaluation x (some e)) ∧
    ∀ rep, rep.evaluated a = some (tool, elbow) → rep.count = count → ∀ st, st = Start.fresh ∨ st = Start.expiry →
      let g := (s.arm x).guard
      (s.guardState x = .live → s.evaluateReport x rep m st = (s.setEvaluation x (some e)).tripOwn x .overspeed) ∧
      (s.guardState x = .tripped → s.evaluateReport x rep m st =
        s.setArm x ⟨(s.arm x).monitor, some e,
          { g with trip := g.trip.map fun r => { r with secondBreach := true } }⟩)

/-! ### Arm guard states and trips (chapters 7 and 8) -/

/-- A fresh report of an ARMING arm: a CLEAR evaluation with every probe at CREEP or slower raises the clean count, and at
REARM_COUNT makes the arm LIVE with its permit on and LIVE raised; any other sets the count to 0. It is the model's choice
that with REARM_COUNT 1 this holds after an expiry as well, where R130 has the arm stay ARMING (log 28). -/
def Obligations.CleanRunGivesThePermit : Prop :=
  ∀ (x : Arm) (tag : BitVec 4) (rep : Report) (s : State) (e : Evaluation),
    s.taken x.party (.nop x.party tag (some rep)) = true →
    reportOutcome rep (s.params.arm x).elbowRadius (s.arm x).monitor.lastCount = .fresh →
    (s.port x.party).reported = false → s.guardState x = .arming → s.evaluate x rep 0 = some e →
    let g := (s.arm x).guard
    let a := s.params.arm x
    let clean := e.result = none ∧ e.tool.speed ≤ a.creep ∧ ∀ b, e.elbow = some b → b.speed ≤ a.creep
    ∃ t, exec (.nop x.party tag (some rep)) s = .next t ∧
      (clean → a.rearmCount ≤ g.clean + 1 →
        (t.arm x).guard = { g with state := .live, permit := true, clean := g.clean + 1 } ∧
        Notice.live rep.count ∈ (t.port x.party).attention) ∧
      (clean → g.clean + 1 < a.rearmCount → (t.arm x).guard = { g with clean := g.clean + 1 }) ∧
      (¬clean → (t.arm x).guard = { g with clean := 0 }) ∧
      t.arm x.other = s.arm x.other ∧ s.ControlKept t

/-- A fresh report of a LIVE arm that finds a breach trips the arm with that cause: its permit falls, its trip record is
written anew from the evaluation, its PENDING claim is cancelled, INTRUSION names the first covered tile of C, and TRIPPED
and ARM_TRIPPED are raised. A CLEAR one leaves its guard as it was. A TRIPPED arm notes a breach as its second and changes
nothing else of its guard or its trip claim. -/
def Obligations.BreachTripsALiveArm : Prop :=
  ∀ (x : Arm) (tag : BitVec 4) (rep : Report) (s : State) (e : Evaluation),
    s.taken x.party (.nop x.party tag (some rep)) = true →
    reportOutcome rep (s.params.arm x).elbowRadius (s.arm x).monitor.lastCount = .fresh →
    (s.port x.party).reported = false → s.evaluate x rep 0 = some e →
    let g := (s.arm x).guard
    ∃ t, exec (.nop x.party tag (some rep)) s = .next t ∧
      (s.guardState x = .live → e.result = none → (t.arm x).guard = g ∧ t.tripTiles x = s.tripTiles x) ∧
      (∀ c, s.guardState x = .live → e.result = some c →
        t.guardState x = .tripped ∧ (t.arm x).guard.permit = false ∧ (t.arm x).guard.clean = 0 ∧
        (t.arm x).guard.joined = g.joined ∧
        (∃ r, (t.arm x).guard.trip = some r ∧ r.New c ∧ r.kind = e.kind ∧ r.tile = e.tile ∧ r.count = some rep.count ∧
          r.missed = 0 ∧ r.rect = e.rect ∧ r.speed = e.kind.map e.speedOf ∧ r.Measures (some e) 0 ∧
          (r.contested = true ↔ ∃ z p, e.covers z = true ∧ (s.tile z).owner = some p ∧ p ≠ x.party) ∧
          r.tileCount = (t.tripTiles x).length) ∧
        (∀ z, z ∈ t.tripTiles x ↔ e.covers z = true ∧
          ((s.tile z).owner = some x.party ∨ ((s.tile z).owner = none ∧ (s.tile z).service = .opened))) ∧
        (s.QueueLaw → s.PendingCancelled t x) ∧
        (∀ z, IsFirst (fun z => e.covers z = true ∧ (s.tile z).owner = some .C) z →
          ¬(s.params.tripScope = .paired ∧ s.trippable x.other = true ∧ ∃ w, s.IntrudedAt x.other w) →
          Notice.intrusion x z ∈ (t.port .C).attention) ∧
        Notice.tripped c ∈ (t.port x.party).attention ∧ Notice.armTripped x ∈ (t.port .C).attention) ∧
      (s.guardState x = .tripped →
        (t.arm x).guard =
          (if e.result.isSome = true then { g with trip := g.trip.map fun r => { r with secondBreach := true } } else g) ∧
        t.tripTiles x = s.tripTiles x) ∧
      s.ControlKept t

/-- Step 3 of a trip: of the tiles the arm's envelope touches, its own gain a hold and free OPEN ones become its own; they
are its trip claim; the record counts them and says whether another party owned a touched tile. -/
def Obligations.TripClaimTakesTheCover : Prop :=
  ∀ (s : State) (x : Arm),
    let u := s.buildTripClaim x
    let taken := fun t => s.touches x t = true ∧
      ((s.tile t).owner = some x.party ∨ ((s.tile t).owner = none ∧ (s.tile t).service = .opened))
    (∀ t, taken t → u.tile t = { s.tile t with owner := some x.party, hold := (s.tile t).hold + 1 }) ∧
    (∀ t, ¬taken t → u.tile t = s.tile t) ∧
    (∀ t, t ∈ u.tripTiles x ↔ taken t) ∧ (u.tripTiles x).Nodup ∧ u.tripTiles x.other = s.tripTiles x.other ∧
    (∀ p k, u.slot p k = s.slot p k) ∧
    (∀ r, (s.arm x).guard.trip = some r →
      ∃ c, (u.arm x).guard.trip = some { r with contested := c, tileCount := (u.tripTiles x).length } ∧
        (c = true ↔ ∃ t p, s.touches x t = true ∧ (s.tile t).owner = some p ∧ p ≠ x.party)) ∧
    u = { s with tiles := u.tiles, claims := u.claims, armA := u.armA, armB := u.armB } ∧
    u.arm x.other = s.arm x.other ∧
    u.arm x = { s.arm x with guard := { (s.arm x).guard with trip := (u.arm x).guard.trip } }

/-- A trip with an own cause. The tripping arm's record takes the evaluation's probe kind, tile and measures; a far-side
excursion of the evaluation trips the other arm, if ARMING or LIVE, with FAR_CONTACT, a tile of the other arm with
FOREIGN_CONTACT and the first such tile, and else PAIRED scope with the same cause; otherwise the other arm is as it was. A
contact or scope trip keeps its own record's measures and gives no probe kind. Each arm that trips has its PENDING claim
cancelled and its trip claim built, its tiles each with one hold more and no other tile or claim changed before the one
grant scan that ends the trip; and INTRUSION names the arm tripped last over a tile of C with the first such tile. -/
def Obligations.TripSpread : Prop :=
  ∀ (s : State) (x : Arm) (cause : Cause),
    let y := x.other
    let t := s.tripOwn x cause
    let far := ∃ e v, (s.arm x).evaluation = some e ∧ v ∈ e.envelopes ∧ v.farSide x = true
    let foreign := ∃ e, (s.arm x).evaluation = some e ∧ e.foreign.has y.party = true
    let contacts := s.trippable y = true ∧ (far ∨ foreign)
    let spreads := s.trippable y = true ∧ ¬far ∧ ¬foreign ∧ s.params.tripScope = .paired
    let trips := fun (c : Cause) (tile : Option Tile → Prop) =>
      t.guardState y = .tripped ∧ (t.arm y).guard.permit = false ∧ (t.arm y).guard.clean = 0 ∧
      Notice.tripped c ∈ (t.port y.party).attention ∧ (s.QueueLaw → s.PendingCancelled t y) ∧
      (t.tripTiles y).Nodup ∧
      (∀ z, z ∈ t.tripTiles y ↔ s.touches y z = true ∧
        ((s.tile z).owner = some y.party ∨ (s.FreeOpen z ∧ z ∉ t.tripTiles x))) ∧
      ∃ r, (t.arm y).guard.trip = some r ∧ r.New c ∧ r.kind = none ∧ tile r.tile ∧
        r.Measures (s.arm y).evaluation (s.arm y).monitor.missed ∧ r.tileCount = (t.tripTiles y).length ∧
        (r.contested = true ↔ ∃ z, s.touches y z = true ∧
          (z ∈ t.tripTiles x ∨ ∃ p, (s.tile z).owner = some p ∧ p ≠ y.party))
    t.guardState x = .tripped ∧ Notice.armTripped x ∈ (t.port .C).attention ∧ s.ControlKept t ∧
    Notice.tripped cause ∈ (t.port x.party).attention ∧ (s.QueueLaw → s.PendingCancelled t x) ∧
    (∀ z, z ∈ t.tripTiles x ↔ s.touches x z = true ∧ ((s.tile z).owner = some x.party ∨ s.FreeOpen z)) ∧
    (t.tripTiles x).Nodup ∧
    (∃ r, (t.arm x).guard.trip = some r ∧ r.New cause ∧
      r.kind = (s.arm x).evaluation.bind Evaluation.kind ∧ r.tile = (s.arm x).evaluation.bind Evaluation.tile ∧
      r.Measures (s.arm x).evaluation (s.arm x).monitor.missed ∧ r.tileCount = (t.tripTiles x).length ∧
      (r.contested = true ↔ ∃ z p, s.touches x z = true ∧ (s.tile z).owner = some p ∧ p ≠ x.party)) ∧
    (s.trippable y = true → far → trips .farContact fun o => o = none) ∧
    (s.trippable y = true → ¬far → foreign → trips .foreignContact fun o =>
      ∀ z, IsFirst (fun z => s.touches x z = true ∧ (s.tile z).owner = some y.party) z → o = some z) ∧
    (spreads → trips cause fun o => o = none) ∧
    (s.trippable y = false ∨ (¬far ∧ ¬foreign ∧ s.params.tripScope = .local_) →
      t.arm y = s.arm y ∧ t.tripTiles y = s.tripTiles y) ∧
    (∀ z, IsFirst (s.IntrudedAt x) z → (¬spreads ∨ ¬∃ w, s.IntrudedAt y w) →
      Notice.intrusion x z ∈ (t.port .C).attention) ∧
    (∀ z, IsFirst (s.IntrudedAt y) z → (spreads ∨ (contacts ∧ ¬∃ w, s.IntrudedAt x w)) →
      Notice.intrusion y z ∈ (t.port .C).attention) ∧
    ((¬∃ z, s.IntrudedAt x z) → (¬contacts ∧ ¬spreads ∨ ¬∃ z, s.IntrudedAt y z) →
      ∀ z n, n = Notice.intrusion x z ∨ n = Notice.intrusion y z →
        (n ∈ (t.port .C).attention ↔ n ∈ (s.port .C).attention)) ∧
    ∃ w : State, t = w.grantScan ∧ s.TripTilesHeld w x (t.tripTiles x) ∧
      (contacts ∨ spreads → s.TripTilesHeld w y (t.tripTiles y)) ∧
      (∀ z, z ∉ t.tripTiles x → (contacts ∨ spreads → z ∉ t.tripTiles y) → w.tile z = s.tile z) ∧
      w.closing = s.closing ∧
      (s.QueueLaw → w.queue.Sublist s.queue ∧ ∀ n, n ∈ w.queue ↔
        n ∈ s.queue ∧ n.party ≠ x.party ∧ (n.party = y.party → ¬contacts ∧ ¬spreads)) ∧
      ∀ p k, (s.slot p k).state ≠ .pending ∨ (p ≠ x.party ∧ (p = y.party → ¬contacts ∧ ¬spreads)) →
        w.slot p k = s.slot p k

/-- JOIN in GUARDING, by the conditions of R120: DONE without change for an arm that is not OFFLINE, STALE_GEOMETRY for
another epoch, and else the arm is ARMING with nothing reported or evaluated. That the guard state given is the one after
the request's own report is the model's choice (log 30). -/
def Obligations.JoinMakesAnArmArming : Prop :=
  ∀ (x : Arm) (tag : BitVec 4) (rep : Option Report) (epoch : Byte) (s : State),
    s.taken x.party (.join x tag rep epoch) = true → s.mode = .guarding →
    let s1 := s.afterReport x.party rep
    (s1.guardState x ≠ .offline →
      exec (.join x tag rep epoch) s =
        .next (s1.placeReply x.party tag 16 ⟨.done, false, .joined (s1.arm x).guard.joined (s1.guardState x)⟩)) ∧
    (s1.guardState x = .offline → epoch ≠ s1.epoch →
      exec (.join x tag rep epoch) s = .next (s1.placeReply x.party tag 16 ⟨.staleGeometry, false, .empty⟩)) ∧
    (s1.guardState x = .offline → epoch = s1.epoch →
      exec (.join x tag rep epoch) s =
        .next ((s1.setArm x
          { monitor := ⟨none, none, 0, some (s1.params.arm x).reportPeriod⟩, evaluation := none,
            guard := ⟨.arming, false, 0, some s1.epoch, (s1.arm x).guard.trip⟩ }).placeReply x.party tag 16
          ⟨.done, false, .joined (some s1.epoch) .offline⟩))

/-- LEAVE, by the arm's guard state and its slots (R124). That the guard state given is the one after the request's own
report is the model's choice (log 30). -/
def Obligations.LeaveNeedsEmptySlots : Prop :=
  ∀ (x : Arm) (tag : BitVec 4) (rep : Option Report) (s : State), s.taken x.party (.leave x tag rep) = true →
    let s1 := s.afterReport x.party rep
    let answers := fun (u : State) (a : Answer) => exec (.leave x tag rep) s = .next (u.placeReply x.party tag 17 a)
    (s1.guardState x = .offline → answers s1 ⟨.done, false, .left .offline⟩) ∧
    (s1.guardState x = .tripped → answers s1 ⟨.armTripped, false, .empty⟩) ∧
    (s1.guardState x = .arming ∨ s1.guardState x = .live →
      (∀ k : SlotNo, s1.slot x.party k ≠ .empty → (∀ j < k, s1.slot x.party j = .empty) →
        answers s1 ⟨.holding, false, .holdingSlot k.val⟩) ∧
      ((∀ k, s1.slot x.party k = .empty) → s1.tripTiles x ≠ [] →
        answers s1 ⟨.holding, false, .holdingSlot 4⟩) ∧
      ((∀ k, s1.slot x.party k = .empty) → s1.tripTiles x = [] →
        answers
          (s1.setArm x
            { monitor := { (s1.arm x).monitor with timer := none }, evaluation := (s1.arm x).evaluation,
              guard := { (s1.arm x).guard with state := .offline, permit := false, clean := 0 } })
          ⟨.done, false, .left (s1.guardState x)⟩))

/-- CLEAR_TRIP in GUARDING, by the conditions of R125: a TRIPPED arm with slot 4 EMPTY becomes ARMING, and its trip record
is marked cleared. -/
def Obligations.ClearTripRearms : Prop :=
  ∀ (x : Arm) (tag : BitVec 4) (rep : Option Report) (s : State),
    s.taken x.party (.clearTrip x tag rep) = true → s.mode = .guarding →
    let s1 := s.afterReport x.party rep
    let g := (s1.arm x).guard
    (s1.guardState x ≠ .tripped →
      exec (.clearTrip x tag rep) s = .next (s1.placeReply x.party tag 18 ⟨.notTripped, false, .empty⟩)) ∧
    (s1.guardState x = .tripped → s1.tripTiles x ≠ [] →
      exec (.clearTrip x tag rep) s =
        .next (s1.placeReply x.party tag 18 ⟨.holding, false, .holdingTiles (s1.tripTiles x).length⟩)) ∧
    (∀ r, s1.guardState x = .tripped → s1.tripTiles x = [] → g.trip = some r →
      exec (.clearTrip x tag rep) s =
        .next ((s1.setArm x
          { s1.arm x with guard := ⟨.arming, false, 0, g.joined, some { r with cleared := true }⟩ }).placeReply
            x.party tag 18 ⟨.done, false, .tripCleared (some r.cause)⟩))

/-- EVICT: BAD_FRAME for a code that names no arm, NOT_TRIPPED for a LIVE or OFFLINE arm. An ARMING or TRIPPED arm
becomes OFFLINE with every slot EMPTY and every tile it owned freed, its PENDING claim cancelled with cause EVICT, and
EVICTED at its port; what was measured and its trip record are kept. The state is that of one grant scan of a state `w`
which differs from the state before in the arm's claims, tiles and queue entry, in the CLOSING ones of its tiles, now
BLOCKED, with the closing-tile count and BLOCK_DONE, and in CANCELLED alone: no other party's claim, tile or set is
touched. -/
def Obligations.EvictFreesTheArm : Prop :=
  ∀ (tag : BitVec 4) (arm : Byte) (s : State), s.taken .C (.evict tag arm) = true →
    (2 ≤ arm.toNat → exec (.evict tag arm) s = .next (s.placeReply .C tag 70 ⟨.badFrame, false, .empty⟩)) ∧
    ∀ x : Arm, arm.toNat = (match x with
        | .A => 0
        | .B => 1) →
      (s.guardState x = .live ∨ s.guardState x = .offline →
        exec (.evict tag arm) s = .next (s.placeReply .C tag 70 ⟨.notTripped, false, .empty⟩)) ∧
      (s.guardState x = .arming ∨ s.guardState x = .tripped → s.Lawful →
        ∃ (u : State) (claims : Nat), exec (.evict tag arm) s =
            .next (u.placeReply .C tag 70
              ⟨.done, false, .evicted x (s.guardState x) claims
                (countTiles fun t => (s.tile t).owner == some x.party)⟩) ∧
          claims = slotNos.countP (fun k => decide (s.slot x.party k ≠ .empty)) +
            (if s.tripTiles x = [] then 0 else 1) ∧
          u.arm x =
            { monitor := { (s.arm x).monitor with timer := none }, evaluation := (s.arm x).evaluation,
              guard := { (s.arm x).guard with state := .offline, permit := false, clean := 0 } } ∧
          (∀ k, u.slot x.party k = .empty) ∧ u.tripTiles x = [] ∧
          (∀ t, (u.tile t).owner ≠ some x.party ∧ (u.tile t).speedClass = (s.tile t).speedClass) ∧
          (∀ k, (s.slot x.party k).state = .pending →
            Notice.cancelled k .evict ∈ (u.port x.party).attention) ∧
          Notice.evicted (s.guardState x) ∈ (u.port x.party).attention ∧
          u.arm x.other = s.arm x.other ∧ u.tripTiles x.other = s.tripTiles x.other ∧
          s.ControlKept u ∧ u.NoneGrantable ∧
          ∃ w : State, s.EvictedClaims w x ∧
            u = (w.grantScan.setArm x (u.arm x)).raise x.party (.evicted (s.guardState x)))

/-! ### Claims (chapters 4 to 6) -/

/-- CLAIM that is grantable at once: its tiles gain a hold of its party, it is HELD in the lowest EMPTY slot, and nothing
else changes. -/
def Obligations.ClaimGrantedAtOnce : Prop :=
  ∀ (p : Party) (tag : BitVec 4) (rep : Option Report) (c0 c1 r0 r1 : Byte) (k : SlotNo) (s : State),
    s.taken p (.claim p tag rep c0 c1 r0 r1) = true → s.mode = .guarding →
    let s1 := s.afterReport p rep
    let r := Rect.ofCorners c0 c1 r0 r1
    s1.MayClaim p → s1.params.Inside c0 c1 r0 r1 → s1.NoPending p → s1.NewSlot p k → s1.GrantableAtOnce p r →
    ∃ u : State, exec (.claim p tag rep c0 c1 r0 r1) s =
        .next (u.placeReply p tag 32 ⟨.granted, exchanged c0 c1 r0 r1, .claimGranted k r⟩) ∧
      s1.TilesGranted u p r ∧ u.slot p k = .held r none ∧
      (∀ q j, (q, j) ≠ (p, k) → u.slot q j = s1.slot q j) ∧ (∀ x, u.tripTiles x = s1.tripTiles x) ∧
      u = { s1 with tiles := u.tiles, claims := u.claims }

/-- CLAIM and SHIFT that are not grantable at once: refused CYCLE, with no change, exactly where the waits of the new
claim come back to its party; else PENDING at the tail of the queue with an arrival number above every other and age 0,
and the reply names the parties it waits on. -/
def Obligations.NotGrantableIsQueuedOrCycle : Prop :=
  ∀ (p : Party) (tag : BitVec 4) (rep : Option Report) (c0 c1 r0 r1 : Byte) (k : SlotNo) (s : State) (c : Instr)
    (kind : Byte) (link : Option SlotNo), s.taken p c = true → s.mode = .guarding →
    let s1 := s.afterReport p rep
    let r := Rect.ofCorners c0 c1 r0 r1
    (c = .claim p tag rep c0 c1 r0 r1 ∧ kind = 32 ∧ link = none ∨
      ∃ src b, c = .shift p tag rep b c0 c1 r0 r1 ∧ kind = 33 ∧ link = some src ∧ s1.shiftSource p b = .ok src) →
    s1.MayClaim p → s1.params.Inside c0 c1 r0 r1 → s1.NoPending p → s1.NewSlot p k →
    (∀ t, r.contains t = true → (s1.tile t).service = .opened) → ¬s1.GrantableAtOnce p r →
    (s1.ClosesCycle p r → exec c s = .next (s1.placeReply p tag kind ⟨.cycle, false, .empty⟩)) ∧
    (¬s1.ClosesCycle p r →
      ∃ (a : Nat) (waits : PartySet) (payload : Payload),
        exec c s =
          .next (({ s1.setSlot p k (.pending r ⟨a, 0, false⟩ link) with
              queue := s1.queue ++ [⟨p, k⟩] } : State).placeReply p tag kind ⟨.queued, exchanged c0 c1 r0 r1, payload⟩) ∧
        (∀ w ∈ s1.waiters, w.wait.arrival < a) ∧
        (∀ y, waits.has y = true ↔ s1.ClaimWaits p r (fun _ => True) y) ∧
        payload = match link with
          | none => .claimQueued k r waits
          | some src => .shiftQueued k src r waits)

/-- CLAIM and SHIFT refused: the checks of R62 and R102 beside those on the mode, the source and the cycle, in their
order, each with its code, and no change. -/
def Obligations.ClaimAndShiftRefusals : Prop :=
  ∀ (p : Party) (tag : BitVec 4) (rep : Option Report) (c0 c1 r0 r1 : Byte) (s : State) (c : Instr) (kind : Byte),
    s.taken p c = true → s.mode = .guarding →
    let s1 := s.afterReport p rep
    let r := Rect.ofCorners c0 c1 r0 r1
    let refused := fun a : Answer => exec c s = .next (s1.placeReply p tag kind a)
    let isClaim := c = .claim p tag rep c0 c1 r0 r1 ∧ kind = 32
    let isShift := fun b => c = .shift p tag rep b c0 c1 r0 r1 ∧ kind = 33
    (∀ x, p = x.party → (isClaim ∨ ∃ b, isShift b) →
      (s1.guardState x = .offline → refused ⟨.notJoined, false, .empty⟩) ∧
      (s1.guardState x = .tripped → refused ⟨.armTripped, false, .empty⟩)) ∧
    (s1.MayClaim p → (isClaim ∨ ∃ b src, isShift b ∧ s1.shiftSource p b = .ok src) →
      (¬s1.params.Inside c0 c1 r0 r1 → refused ⟨.badRect, false, .empty⟩) ∧
      (s1.params.Inside c0 c1 r0 r1 →
        (¬s1.NoPending p → refused ⟨.pendingExists, false, .empty⟩) ∧
        (s1.NoPending p →
          ((∀ k, s1.slot p k ≠ .empty) → refused ⟨.tableFull, false, .empty⟩) ∧
          ((∃ k, s1.slot p k = .empty) →
            ∀ t, IsFirst (fun z => r.contains z = true ∧ (s1.tile z).service ≠ .opened) t →
              refused ⟨.protected_, false, .tile t⟩))))

/-- SHIFT of a source: the table of R103. -/
def Obligations.ShiftSourceTable : Prop :=
  ∀ (p : Party) (tag : BitVec 4) (rep : Option Report) (source c0 c1 r0 r1 : Byte) (s : State),
    s.taken p (.shift p tag rep source c0 c1 r0 r1) = true → s.mode = .guarding →
    let s1 := s.afterReport p rep
    s1.MayClaim p →
    let refused := fun code : Result =>
      exec (.shift p tag rep source c0 c1 r0 r1) s = .next (s1.placeReply p tag 33 ⟨code, false, .empty⟩)
    let draining := ∃ j, (s1.slot p j).state = .draining
    (4 < source.toNat → refused .noSuchClaim) ∧
    (source.toNat = 4 → p = .C → refused .noSuchClaim) ∧
    (source.toNat = 4 → p ≠ .C → refused .notShiftable) ∧
    ∀ k : SlotNo, source.toNat = k.val →
      ((s1.slot p k).state = .empty → refused .noSuchClaim) ∧
      ((s1.slot p k).state = .pending → refused .notShiftable) ∧
      ((s1.slot p k).state = .draining → refused .notShiftable) ∧
      ((s1.slot p k).state = .held → draining → refused .notShiftable) ∧
      ((s1.slot p k).state = .held → ¬draining → s1.shiftSource p source = .ok k)

/-- SHIFT granted at once. The target is granted like a claim and named with its source. An arm's source drains, each of
the two naming the other, unless the arm's envelope touches no tile of it outside the target: then it is released and a
grant scan follows. Party C's source is released at once, and a grant scan follows. -/
def Obligations.ShiftGrantedAtOnce : Prop :=
  ∀ (p : Party) (tag : BitVec 4) (rep : Option Report) (source c0 c1 r0 r1 : Byte) (k src : SlotNo) (old : Rect)
    (l : Option SlotNo) (s : State),
    s.taken p (.shift p tag rep source c0 c1 r0 r1) = true → s.mode = .guarding →
    let s1 := s.afterReport p rep
    let r := Rect.ofCorners c0 c1 r0 r1
    s1.MayClaim p → s1.shiftSource p source = .ok src → s1.slot p src = .held old l →
    s1.params.Inside c0 c1 r0 r1 → s1.NoPending p → s1.NewSlot p k → s1.GrantableAtOnce p r →
    ∃ g : State, s1.TilesGranted g p r ∧ g.slot p k = .held r (some src) ∧
      g.slot p src = (if p = .C then .held old l else .draining old k) ∧
      (∀ q j, (q, j) ≠ (p, k) → (q, j) ≠ (p, src) → g.slot q j = s1.slot q j) ∧
      (∀ x, g.tripTiles x = s1.tripTiles x) ∧ g = { s1 with tiles := g.tiles, claims := g.claims } ∧
      (let stays := ∃ x, p = x.party ∧ ∃ t, old.contains t = true ∧ r.contains t = false ∧ s1.touches x t = true
       (stays →
         exec (.shift p tag rep source c0 c1 r0 r1) s =
           .next (g.placeReply p tag 33 ⟨.granted, exchanged c0 c1 r0 r1, .shiftGranted k src r .draining 0⟩)) ∧
       (¬stays →
         exec (.shift p tag rep source c0 c1 r0 r1) s =
           .next ((g.releaseSlot p src).1.grantScan.placeReply p tag 33
             ⟨.granted, exchanged c0 c1 r0 r1, .shiftGranted k src r .released (g.releaseSlot p src).2⟩)))

/-- RELEASE outside SETUP, by the conditions of R70: NO_SUCH_CLAIM, the withdrawal of a PENDING claim, OCCUPIED with the
first tile in scan order that the release would free under the arm's envelope, or the release; a grant scan follows a
withdrawal and a release. That the claim's state given is the one after the request's own report is the model's choice
(log 30). -/
def Obligations.ReleaseByCondition : Prop :=
  ∀ (p : Party) (tag : BitVec 4) (rep : Option Report) (slot : Byte) (s : State),
    s.taken p (.release p tag rep slot) = true → s.mode ≠ .setup →
    let s1 := s.afterReport p rep
    let answers := fun (u : State) (a : Answer) =>
      exec (.release p tag rep slot) s = .next (u.placeReply p tag 34 a)
    let occupied := fun (x : Arm) (f : Tile → Bool) (t : Tile) =>
      f t = true ∧ (s1.tile t).hold ≤ 1 ∧ s1.touches x t = true
    (4 < slot.toNat ∨ (slot.toNat = 4 ∧ p = .C) → answers s1 ⟨.noSuchClaim, false, .empty⟩) ∧
    (∀ k : SlotNo, slot.toNat = k.val →
      (s1.slot p k = .empty → answers s1 ⟨.noSuchClaim, false, .empty⟩) ∧
      ((s1.slot p k).state = .pending →
        answers (({ s1.setSlot p k .empty with queue := s1.queue.filter fun n => n ≠ ⟨p, k⟩ } : State).grantScan)
          ⟨.done, false, .released k.val .pending 0⟩) ∧
      (∀ r, (s1.slot p k).heldRect = some r →
        (∀ x t, p = x.party → IsFirst (occupied x r.contains) t → answers s1 ⟨.occupied, false, .tile t⟩) ∧
        ((∀ x t, p = x.party → ¬occupied x r.contains t) →
          answers ((s1.releaseSlot p k).1.grantScan)
            ⟨.done, false, .released k.val (s1.slot p k).state (s1.releaseSlot p k).2⟩))) ∧
    (∀ x, slot.toNat = 4 → p = x.party →
      (s1.tripTiles x = [] → answers s1 ⟨.noSuchClaim, false, .empty⟩) ∧
      (s1.tripTiles x ≠ [] →
        (∀ t, IsFirst (occupied x (s1.inTrip x)) t → answers s1 ⟨.occupied, false, .tile t⟩) ∧
        ((∀ t, ¬occupied x (s1.inTrip x) t) →
          answers ((s1.releaseTrip x).1.grantScan) ⟨.done, false, .released 4 .held (s1.releaseTrip x).2⟩)))

/-- What a release does: the claim's tiles lose one hold, its slot becomes EMPTY, the links to it are cleared and a
DRAINING source of it returns to HELD, and no other claim changes. -/
def Obligations.ReleaseEndsHolds : Prop :=
  (∀ (s : State) (p : Party) (k : SlotNo) (r : Rect), (s.slot p k).heldRect = some r →
    let u := (s.releaseSlot p k).1
    s.HoldsEnded u r.contains ∧
    (s.releaseSlot p k).2 = countTiles (fun t => r.contains t && decide ((s.tile t).hold ≤ 1)) ∧
    u.slot p k = .empty ∧
    (∀ j q w l, j ≠ k → s.slot p j = .pending q w l →
      u.slot p j = .pending q w (if l = some k then none else l)) ∧
    (∀ j q l, j ≠ k → s.slot p j = .held q l → u.slot p j = .held q (if l = some k then none else l)) ∧
    (∀ j q l, j ≠ k → s.slot p j = .draining q l →
      u.slot p j = if l = k then .held q none else .draining q l) ∧
    (∀ j, s.slot p j = .empty → u.slot p j = .empty) ∧
    (∀ q j, q ≠ p → u.slot q j = s.slot q j) ∧ ∀ x, u.tripTiles x = s.tripTiles x) ∧
  ∀ (s : State) (x : Arm),
    let u := (s.releaseTrip x).1
    s.HoldsEnded u (s.inTrip x) ∧
    (s.releaseTrip x).2 = countTiles (fun t => s.inTrip x t && decide ((s.tile t).hold ≤ 1)) ∧
    u.tripTiles x = [] ∧ u.tripTiles x.other = s.tripTiles x.other ∧ ∀ p k, u.slot p k = s.slot p k

/-- A grant scan leaves no grantable claim in the queue: each of its claims is HELD over its rectangle with GRANTED at its
port, and overlaps no earlier one, or waits on with its place and its fields. A granted shift target of an arm names its
source, which becomes DRAINING and names the target, without a drain test; for party C the source is released with the
grant and the target carries no link. The tiles of the granted claims gain a hold, those of such a source end one, with the
closing-tile count and BLOCK_DONE, and every other slot, tile and port is as it was. It changes no arm and no mode. -/
def Obligations.GrantScanGrantsAllItCan : Prop :=
  ∀ s : State, s.Lawful →
    s.grantScan.NoneGrantable ∧ s.grantScan.queue.Sublist s.queue ∧
    (∀ w ∈ s.waiters,
      (w.name ∈ s.grantScan.queue ∧ s.grantScan.slot w.name.party w.name.slot = .pending w.rect w.wait w.link) ∨
      (w.name ∉ s.grantScan.queue ∧ (∃ l, s.grantScan.slot w.name.party w.name.slot = .held w.rect l) ∧
        Notice.granted w.name.slot ∈ (s.grantScan.port w.name.party).attention ∧
        ∀ t, w.rect.contains t = true → (s.grantScan.tile t).owner = some w.name.party)) ∧
    (∀ w, s.Granted s.grantScan w → ∀ z ∈ s.waiters, z.wait.arrival < w.wait.arrival → z.rect.overlaps w.rect = false) ∧
    s.ScanSlots s.grantScan ∧
    (∃ v, s.ScanTiles v s.grantScan ∧
      (∀ w, s.Granted s.grantScan w →
        s.grantScan.port w.name.party = (v.port w.name.party).raise (.granted w.name.slot)) ∧
      ∀ p, (∀ w, s.Granted s.grantScan w → w.name.party ≠ p) → s.grantScan.port p = v.port p) ∧
    (∀ t, (s.grantScan.tile t).speedClass = (s.tile t).speedClass) ∧
    s.grantScan =
      { s with tiles := s.grantScan.tiles, closing := s.grantScan.closing, claims := s.grantScan.claims,
               queue := s.grantScan.queue, portA := s.grantScan.portA, portB := s.grantScan.portB,
               portC := s.grantScan.portC }

/-- The timer events of a PENDING claim. At WAIT_LIMIT, where it is above 0, the claim is removed with EXPIRED and a grant
scan follows; with WAIT_LIMIT 0 nothing happens. At YIELD_PATIENCE its yield-asked flag is set and YIELD is raised once at
each other party that owns a tile of its rectangle; that its wait age is then YIELD_PATIENCE at least is the model's choice
(log 7). -/
def Obligations.WaitTimers : Prop :=
  ∀ (p : Party) (k : SlotNo) (s : State) (r : Rect) (w : Waiting) (l : Option SlotNo),
    s.slot p k = .pending r w l →
    (s.params.waitLimit = 0 → exec (.waitLimitExpiry p k) s = .next s) ∧
    (0 < s.params.waitLimit →
      exec (.waitLimitExpiry p k) s =
        .next ((({ s.setSlot p k .empty with queue := s.queue.filter fun n => n ≠ ⟨p, k⟩ } : State).raise p
          (.expired k)).grantScan)) ∧
    (w.asked = true → exec (.yieldTime p k) s = .next s) ∧
    (w.asked = false →
      ∃ t a, exec (.yieldTime p k) s = .next t ∧ a = max w.age (1000 * s.params.yieldPatience) ∧
        t.claims = (s.setSlot p k (.pending r ⟨w.arrival, a, true⟩ l)).claims ∧
        (∀ y, y ≠ p → (∃ z, r.contains z = true ∧ (s.tile z).owner = some y) →
          t.port y = (s.port y).raise (.yield p k)) ∧
        (∀ y, (y = p ∨ ¬∃ z, r.contains z = true ∧ (s.tile z).owner = some y) → t.port y = s.port y) ∧
        t = { s with claims := t.claims, portA := t.portA, portB := t.portB, portC := t.portC })

/-! ### The Tile Map (chapter 1) -/

/-- WRITE_ROW in SETUP: BAD_FRAME for a list not of 1 to 32 entries, then BAD_RECT for a row or a start column beyond the
grid; else the last NCOL entries at most are placed from the start column, wrapping in the row, a valid one setting
service and class together, and the reply counts those written and those kept. -/
def Obligations.WriteRowPlacesEntries : Prop :=
  ∀ (tag : BitVec 4) (row col : Byte) (entries : List Byte) (s : State),
    s.taken .C (.writeRow tag row col entries) = true → s.mode = .setup →
    let n := entries.length
    let ncol := s.params.ncol
    let valid := fun e : Byte => e.toNat / 16 ≤ 1 ∧ e.toNat % 16 < 4
    (n = 0 ∨ 32 < n →
      exec (.writeRow tag row col entries) s = .next (s.placeReply .C tag 50 ⟨.badFrame, false, .empty⟩)) ∧
    (1 ≤ n → n ≤ 32 → s.params.nrow ≤ row.toNat ∨ ncol ≤ col.toNat →
      exec (.writeRow tag row col entries) s = .next (s.placeReply .C tag 50 ⟨.badRect, false, .empty⟩)) ∧
    (1 ≤ n → n ≤ 32 → row.toNat < s.params.nrow → col.toNat < ncol →
      ∃ (u : State) (written kept : Nat),
        exec (.writeRow tag row col entries) s =
          .next (u.placeReply .C tag 50 ⟨.done, false, .rowWritten written kept⟩) ∧
        written = (entries.drop (n - ncol)).countP (fun e => decide (valid e)) ∧ written + kept = min n ncol ∧
        u = { s with tiles := u.tiles } ∧
        (∀ t i e, t.row.val = row.toNat → entries[i]? = some e → n ≤ i + ncol →
          (col.toNat + i) % ncol = t.col.val →
          (u.tile t).owner = (s.tile t).owner ∧ (u.tile t).hold = (s.tile t).hold ∧
          (valid e → (u.tile t).service = (if e.toNat / 16 = 0 then .opened else .blocked) ∧
            (u.tile t).speedClass.val = e.toNat % 16) ∧
          (¬valid e → u.tile t = s.tile t)) ∧
        ∀ t, (t.row.val ≠ row.toNat ∨ ∀ i, i < n → n ≤ i + ncol → (col.toNat + i) % ncol ≠ t.col.val) →
          u.tile t = s.tile t)

/-- BLOCK in GUARDING: the tile table of R13 over the rectangle, the closing-tile count raised by the tiles that became
CLOSING, the PENDING claims over a changed tile withdrawn with WITHDRAWN and its first such tile, and, where any was, a
grant scan. -/
def Obligations.BlockTakesTilesOut : Prop :=
  ∀ (tag : BitVec 4) (c0 c1 r0 r1 : Byte) (s : State), s.taken .C (.block tag c0 c1 r0 r1) = true →
    s.mode = .guarding → s.QueueLaw →
    let r := Rect.ofCorners c0 c1 r0 r1
    let opened := fun t => r.contains t && (s.tile t).service == .opened
    let toClosing := countTiles fun t => opened t && (s.tile t).owner.isSome
    let toBlocked := countTiles fun t => opened t && (s.tile t).owner.isNone
    let hit := fun w : Waiter => ∃ t, w.rect.contains t = true ∧ opened t = true
    (¬s.params.Inside c0 c1 r0 r1 →
      exec (.block tag c0 c1 r0 r1) s = .next (s.placeReply .C tag 48 ⟨.badRect, false, .empty⟩)) ∧
    (s.params.Inside c0 c1 r0 r1 →
      ∃ u v : State, exec (.block tag c0 c1 r0 r1) s =
          .next (v.placeReply .C tag 48
            ⟨if toClosing = 0 then .done else .closing, exchanged c0 c1 r0 r1, .blocked toClosing toBlocked⟩) ∧
        ((∃ w ∈ s.waiters, hit w) → v = u.grantScan) ∧ ((¬∃ w ∈ s.waiters, hit w) → v = u) ∧
        (∀ t, u.tile t =
          if opened t = true then
            { s.tile t with service := if (s.tile t).owner.isSome = true then .closing else .blocked }
          else s.tile t) ∧
        u.closing = s.closing + toClosing ∧
        (∀ w ∈ s.waiters, hit w →
          w.name ∉ u.queue ∧ u.slot w.name.party w.name.slot = .empty ∧
          ∀ t, IsFirst (fun z => w.rect.contains z = true ∧ opened z = true) t →
            Notice.withdrawn w.name.slot t ∈ (u.port w.name.party).attention) ∧
        (∀ p, (∀ w ∈ s.waiters, w.name.party = p → ¬hit w) → u.port p = s.port p) ∧
        u.queue = s.queue.filter (fun n => (s.waiter n).any fun w : Waiter =>
          allTiles.all fun t => !(w.rect.contains t && opened t)) ∧
        (∀ p k, (⟨p, k⟩ : ClaimName) ∈ u.queue ∨ (s.slot p k).state ≠ .pending → u.slot p k = s.slot p k) ∧
        (∀ x, u.tripTiles x = s.tripTiles x) ∧
        u = { s with tiles := u.tiles, closing := u.closing, claims := u.claims, queue := u.queue, portA := u.portA,
                     portB := u.portB, portC := u.portC })

/-- UNBLOCK in GUARDING: BLOCKED and CLOSING tiles of the rectangle become OPEN with their owners, the closing-tile count
falls by the CLOSING ones with its BLOCK_DONE, the reply counts the tiles reopened, and a grant scan follows. -/
def Obligations.UnblockReturnsTiles : Prop :=
  ∀ (tag : BitVec 4) (c0 c1 r0 r1 : Byte) (s : State), s.taken .C (.unblock tag c0 c1 r0 r1) = true →
    s.mode = .guarding →
    let r := Rect.ofCorners c0 c1 r0 r1
    (¬s.params.Inside c0 c1 r0 r1 →
      exec (.unblock tag c0 c1 r0 r1) s = .next (s.placeReply .C tag 49 ⟨.badRect, false, .empty⟩)) ∧
    (s.params.Inside c0 c1 r0 r1 →
      let n := countTiles fun t => r.contains t && (s.tile t).service == .closing
      ∃ u : State, exec (.unblock tag c0 c1 r0 r1) s =
          .next (u.grantScan.placeReply .C tag 49
            ⟨.done, exchanged c0 c1 r0 r1, .unblocked (n + countTiles fun t =>
              r.contains t && (s.tile t).service == .blocked)⟩) ∧
        (∀ t, u.tile t = if r.contains t = true then { s.tile t with service := .opened } else s.tile t) ∧
        u.closing = s.closing - n ∧
        u.portC = (if 0 < s.closing ∧ s.closing ≤ n then s.portC.raise .blockDone else s.portC) ∧
        u = { s with tiles := u.tiles, closing := u.closing, portC := u.portC })

/-! ### Reading (R20, R79, R101, R143, R167) -/

/-- READ_ROW answers the records of the active columns of one row in column order and changes nothing. -/
def Obligations.ReadRowGivesTheRow : Prop :=
  ∀ (p : Party) (tag : BitVec 4) (rep : Option Report) (row : Byte) (s : State),
    s.taken p (.readRow p tag rep row) = true →
    let s1 := s.afterReport p rep
    (s1.params.nrow ≤ row.toNat →
      exec (.readRow p tag rep row) s = .next (s1.placeReply p tag 3 ⟨.badRect, false, .empty⟩)) ∧
    (row.toNat < s1.params.nrow → s1.params.nrow ≤ 8 → s1.params.ncol ≤ 16 →
      ∃ recs, exec (.readRow p tag rep row) s = .next (s1.placeReply p tag 3 ⟨.done, false, .row recs⟩) ∧
        recs.length = s1.params.ncol ∧
        ∀ t : Tile, t.row.val = row.toNat → t.col.val < s1.params.ncol → recs[t.col.val]? = some (s1.tile t))

/-- READ_TRIP and READ_ARM answer the trip record and the blocks of the arm asked for, the port's own at an Arm Port;
READ_CLAIMS the slots of the party named in slot order, five for an arm and four for C; READ_QUEUE the waiting claims in
queue order with the parties each waits on now. A code that names none is refused BAD_FRAME; nothing changes. -/
def Obligations.ReadsOfArmsAndClaims : Prop :=
  (∀ (x : Arm) (tag : BitVec 4) (rep : Option Report) (arm : Option Byte) (s : State),
    s.taken x.party (.readTrip x.party tag rep arm) = true →
    let s1 := s.afterReport x.party rep
    exec (.readTrip x.party tag rep arm) s =
      .next (s1.placeReply x.party tag 19 ⟨.done, false, .trip (s1.arm x).guard.trip⟩)) ∧
  (∀ (tag : BitVec 4) (arm : Byte) (s : State), s.taken .C (.readTrip .C tag none (some arm)) = true →
    (2 ≤ arm.toNat →
      exec (.readTrip .C tag none (some arm)) s = .next (s.placeReply .C tag 19 ⟨.badFrame, false, .empty⟩)) ∧
    (arm.toNat = 0 → exec (.readTrip .C tag none (some arm)) s =
      .next (s.placeReply .C tag 19 ⟨.done, false, .trip s.armA.guard.trip⟩)) ∧
    (arm.toNat = 1 → exec (.readTrip .C tag none (some arm)) s =
      .next (s.placeReply .C tag 19 ⟨.done, false, .trip s.armB.guard.trip⟩))) ∧
  (∀ (tag : BitVec 4) (arm : Byte) (s : State), s.taken .C (.readArm tag arm) = true →
    (2 ≤ arm.toNat → exec (.readArm tag arm) s = .next (s.placeReply .C tag 82 ⟨.badFrame, false, .empty⟩)) ∧
    ∀ x : Arm, arm.toNat = (match x with
        | .A => 0
        | .B => 1) →
      exec (.readArm tag arm) s =
        .next (s.placeReply .C tag 82
          ⟨.done, false, .arm ⟨s.guardState x, (s.arm x).guard.joined, (s.arm x).monitor.lastReport,
            (s.arm x).monitor.lastCount, (s.arm x).monitor.missed, (s.arm x).evaluation, (s.tripTiles x).length⟩⟩)) ∧
  (∀ (tag : BitVec 4) (party : Byte) (s : State), s.taken .C (.readClaims tag party) = true →
    (3 ≤ party.toNat →
      exec (.readClaims tag party) s = .next (s.placeReply .C tag 80 ⟨.badFrame, false, .empty⟩)) ∧
    ∀ p : Party, party.toNat = (match p with
        | .A => 0
        | .B => 1
        | .C => 2) →
      ∃ views, exec (.readClaims tag party) s = .next (s.placeReply .C tag 80 ⟨.done, false, .claims views⟩) ∧
        views.length = (if p = .C then 4 else 5) ∧
        (∀ k : SlotNo, ∃ v, views[k.val]? = some v ∧ v.state = (s.slot p k).state ∧ v.rect = (s.slot p k).rect ∧
          v.link = (s.slot p k).link ∧ v.tiles = none ∧
          v.trip = (if (s.slot p k).state = .empty then none else some false) ∧
          (∀ r w l, s.slot p k = .pending r w l →
            v.position = some (s.queue.idxOf ⟨p, k⟩ + 1) ∧ v.waitAge = some (min (w.age / 1000) 65535) ∧
            v.asked = some w.asked) ∧
          ((s.slot p k).state ≠ .pending → v.position = none ∧ v.waitAge = none ∧ v.asked = none)) ∧
        ∀ x, p = x.party → ∃ v, views[4]? = some v ∧
          (s.tripTiles x = [] → v.state = .empty ∧ v.tiles = none) ∧
          (s.tripTiles x ≠ [] →
            ∃ r, v.state = .held ∧ v.trip = some true ∧ v.tiles = some ((s.tripTiles x).length, r) ∧
              (∀ t ∈ s.tripTiles x, r.contains t = true) ∧
              (∃ t ∈ s.tripTiles x, t.col.val = r.col0) ∧ (∃ t ∈ s.tripTiles x, t.col.val = r.col1) ∧
              (∃ t ∈ s.tripTiles x, t.row.val = r.row0) ∧ ∃ t ∈ s.tripTiles x, t.row.val = r.row1)) ∧
  ∀ (tag : BitVec 4) (s : State), s.taken .C (.readQueue tag) = true →
    ∃ views, exec (.readQueue tag) s = .next (s.placeReply .C tag 81 ⟨.done, false, .queue views⟩) ∧
      views.length = s.waiters.length ∧
      ∀ (i : Nat) (w : Waiter), s.waiters[i]? = some w → ∃ v, views[i]? = some v ∧
        v.name = w.name ∧ v.rect = w.rect ∧ v.source = w.link ∧ v.waitAge = min (w.wait.age / 1000) 65535 ∧
        v.asked = w.wait.asked ∧
        ∀ y, v.waitsOn.has y = true ↔
          s.ClaimWaits w.name.party w.rect (fun z : Waiter => z.wait.arrival < w.wait.arrival) y

/-! ### Over all commands -/

/-- A permit rises at one event only: the report section of a request of the arm's own port, taken while the arm is
ARMING, which leaves it LIVE on a CLEAR evaluation of that report. It comes with the request's command, or at an idle step
before it (log 27). -/
def Obligations.PermitRisesOnACleanReportAlone : Prop :=
  ∀ (s t : State) (x : Arm), (s.arm x).guard.permit = false → (t.arm x).guard.permit = true →
    let rises := fun rep : Report =>
      s.guardState x = .arming ∧ t.guardState x = .live ∧
      (t.arm x).monitor.lastReport = some rep ∧ (t.arm x).monitor.missed = 0 ∧
      ∃ e, (t.arm x).evaluation = some e ∧ e.count = rep.count ∧ e.result = none ∧ e.retained = false
    (∀ c, exec c s = .next t →
      ∃ q rep, c.request = some q ∧ q.port = x.party ∧ q.rep = some rep ∧ s.taken q.port c = true ∧
        s.SectionDue x rep ∧ rises rep) ∧
    (s.pending = [] → step s = .next t → ∃ rep, s.SectionDue x rep ∧ rises rep)

/-- Which commands change the cell mode, the geometry epoch, the halt-line level, the parameters, a tile's speed class and
a tile's service; any other command changes a tile's service from CLOSING to BLOCKED alone. -/
def Obligations.ControlChangesByNamedCommands : Prop :=
  ∀ (c : Instr) (s t : State), exec c s = .next t →
    (t.mode ≠ s.mode →
      (∃ tag, c = .start tag ∨ c = .stop tag ∨ c = .halt tag ∨ c = .clearHalt tag) ∨ c = .haltLineAssertion ∨
      c = .reset ∨ c = .resetRelease) ∧
    (t.epoch ≠ s.epoch → (∃ tag, c = .start tag) ∨ c = .reset) ∧
    (t.haltLevel ≠ s.haltLevel →
      c = .haltLineAssertion ∨ c = .haltLineRelease ∨ c = .reset ∨ c = .resetRelease) ∧
    (t.params ≠ s.params → (∃ tag i v, c = .setParam tag i v ∧ s.mode = .setup) ∨ c = .reset) ∧
    ∀ z,
      ((t.tile z).speedClass ≠ (s.tile z).speedClass →
        (∃ tag r k es, c = .writeRow tag r k es ∧ s.mode = .setup) ∨ c = .reset) ∧
      ((t.tile z).service ≠ (s.tile z).service →
        (∃ tag r k es, c = .writeRow tag r k es) ∨ (∃ tag c0 c1 r0 r1, c = .block tag c0 c1 r0 r1) ∨
        (∃ tag c0 c1 r0 r1, c = .unblock tag c0 c1 r0 r1) ∨ c = .reset ∨
        ((s.tile z).service = .closing ∧ (t.tile z).service = .blocked))

/-- What a party cannot reach. An arm's Report Monitor and evaluation record change by its own port's requests and its own
expiries, by EVICT, STOP and RESET alone; a port's reply, output record and request in processing with its stage by its own
commands and the reset ones alone; and a notice kind leaves a port's set by that port's ACK and RESET alone. -/
def Obligations.PartiesAreIsolated : Prop :=
  ∀ (c : Instr) (s t : State), exec c s = .next t → c ≠ .reset →
    (∀ y : Arm, (∀ q, c.request = some q → q.port ≠ y.party) → c ≠ .reportPeriodExpiry y →
      (∀ tag b, c ≠ .evict tag b) → (∀ tag, c ≠ .stop tag) →
      (t.arm y).monitor = (s.arm y).monitor ∧ (t.arm y).evaluation = (s.arm y).evaluation) ∧
    (∀ p : Party, (∀ q, c.request = some q → q.port ≠ p) → c ≠ .frameCheckRefusal p → (∀ f, c ≠ .exchangeEnd p f) →
      (∀ f, c ≠ .overrun p f) → c ≠ .resetRelease →
      s.ExchangeKept t p) ∧
    ∀ p : Party, (∀ tag rep codes, c ≠ .ack p tag rep codes) →
      ∀ n ∈ (s.port p).attention, ∃ m ∈ (t.port p).attention, m.code = n.code

/-! ### Invariants -/

/-- Every step keeps the laws of the mode and the guard states, and every parameter within its range: the permit is on
exactly while the arm is LIVE, ARMING and LIVE are found in GUARDING alone, in SETUP both arms are OFFLINE, and in GUARDING
the halt line is released. -/
def Obligations.StepKeepsModeAndParameterLaws : Prop :=
  ∀ s t : State, s.ModeLaw → s.params.Law → step s = .next t → t.ModeLaw ∧ t.params.Law

/-- Every step keeps each port's attention set in order, of its port's kinds, and its line on exactly while it holds any. -/
def Obligations.StepKeepsAttentionLaw : Prop :=
  ∀ s t : State, (∀ p, s.AttentionLaw p) → step s = .next t → ∀ p, t.AttentionLaw p

/-- Every step keeps the queue's law: it names exactly the PENDING claims, at most one of each party, in order of arrival,
and none outside GUARDING. -/
def Obligations.StepKeepsQueueLaw : Prop :=
  ∀ s t : State, s.QueueLaw → step s = .next t → t.QueueLaw

/-- Every step keeps all the laws of the device together, those of tiles, holds and claims among them. That
an ARMING arm's clean count stays below a REARM_COUNT of 1 after an expiry is the model's choice (log 28). -/
def Obligations.StepKeepsTheLaws : Prop :=
  ∀ s t : State, s.Lawful → step s = .next t → t.Lawful

/-- Between events no claim of the queue is grantable, and the waits among the parties have no cycle: every step keeps
both, given the laws of the device. -/
def Obligations.StepKeepsNoneGrantableAndNoCycle : Prop :=
  ∀ s t : State, s.Lawful → step s = .next t →
    (s.NoneGrantable → t.NoneGrantable) ∧ (s.NoneGrantable → s.NoCycle → t.NoCycle)

end
end

