-- ==== Sys2Proof/Laws/State.lean ====
section
/-! SUPPORT. One lemma per field for each update of State: what a setter leaves, and what the accessor of the part it
writes reads after it. -/

namespace Sys2Proof.Machine

open Sys2Proof

/-! ### Setters of the arms -/

/-- `setArm` writes the arms alone. -/
@[simp] theorem State.setArm_frame (s : State) (x : Arm) (u : ArmUnit) :
    (s.setArm x u).held = s.held ∧ (s.setArm x u).haltPinLow = s.haltPinLow ∧ (s.setArm x u).mode = s.mode ∧
    (s.setArm x u).epoch = s.epoch ∧ (s.setArm x u).haltLevel = s.haltLevel ∧
    (s.setArm x u).params = s.params ∧ (s.setArm x u).tiles = s.tiles ∧ (s.setArm x u).closing = s.closing ∧
    (s.setArm x u).claims = s.claims ∧ (s.setArm x u).queue = s.queue ∧ (s.setArm x u).portA = s.portA ∧
    (s.setArm x u).portB = s.portB ∧ (s.setArm x u).portC = s.portC ∧ (s.setArm x u).freeCount = s.freeCount ∧
    (s.setArm x u).pending = s.pending := by
  cases x <;> simp [State.setArm]

/-- `setMonitor` writes the arms alone. -/
@[simp] theorem State.setMonitor_frame (s : State) (x : Arm) (m : Monitor) :
    (s.setMonitor x m).held = s.held ∧ (s.setMonitor x m).haltPinLow = s.haltPinLow ∧
    (s.setMonitor x m).mode = s.mode ∧ (s.setMonitor x m).epoch = s.epoch ∧
    (s.setMonitor x m).haltLevel = s.haltLevel ∧ (s.setMonitor x m).params = s.params ∧
    (s.setMonitor x m).tiles = s.tiles ∧ (s.setMonitor x m).closing = s.closing ∧
    (s.setMonitor x m).claims = s.claims ∧ (s.setMonitor x m).queue = s.queue ∧
    (s.setMonitor x m).portA = s.portA ∧ (s.setMonitor x m).portB = s.portB ∧
    (s.setMonitor x m).portC = s.portC ∧ (s.setMonitor x m).freeCount = s.freeCount ∧
    (s.setMonitor x m).pending = s.pending := by
  simp [State.setMonitor]

/-- `setEvaluation` writes the arms alone. -/
@[simp] theorem State.setEvaluation_frame (s : State) (x : Arm) (e : Option Evaluation) :
    (s.setEvaluation x e).held = s.held ∧ (s.setEvaluation x e).haltPinLow = s.haltPinLow ∧
    (s.setEvaluation x e).mode = s.mode ∧ (s.setEvaluation x e).epoch = s.epoch ∧
    (s.setEvaluation x e).haltLevel = s.haltLevel ∧ (s.setEvaluation x e).params = s.params ∧
    (s.setEvaluation x e).tiles = s.tiles ∧ (s.setEvaluation x e).closing = s.closing ∧
    (s.setEvaluation x e).claims = s.claims ∧ (s.setEvaluation x e).queue = s.queue ∧
    (s.setEvaluation x e).portA = s.portA ∧ (s.setEvaluation x e).portB = s.portB ∧
    (s.setEvaluation x e).portC = s.portC ∧ (s.setEvaluation x e).freeCount = s.freeCount ∧
    (s.setEvaluation x e).pending = s.pending := by
  simp [State.setEvaluation]

/-- `setGuard` writes the arms alone. -/
@[simp] theorem State.setGuard_frame (s : State) (x : Arm) (g : Guard) :
    (s.setGuard x g).held = s.held ∧ (s.setGuard x g).haltPinLow = s.haltPinLow ∧
    (s.setGuard x g).mode = s.mode ∧ (s.setGuard x g).epoch = s.epoch ∧
    (s.setGuard x g).haltLevel = s.haltLevel ∧ (s.setGuard x g).params = s.params ∧
    (s.setGuard x g).tiles = s.tiles ∧ (s.setGuard x g).closing = s.closing ∧
    (s.setGuard x g).claims = s.claims ∧ (s.setGuard x g).queue = s.queue ∧ (s.setGuard x g).portA = s.portA ∧
    (s.setGuard x g).portB = s.portB ∧ (s.setGuard x g).portC = s.portC ∧
    (s.setGuard x g).freeCount = s.freeCount ∧ (s.setGuard x g).pending = s.pending := by
  simp [State.setGuard]

@[simp] theorem State.arm_setArm (s : State) (x : Arm) (u : ArmUnit) : (s.setArm x u).arm x = u := by
  cases x <;> rfl

@[simp] theorem State.arm_setArm_other (s : State) (x : Arm) (u : ArmUnit) :
    (s.setArm x u).arm x.other = s.arm x.other := by
  cases x <;> rfl

theorem State.arm_setArm_of_ne (s : State) {x y : Arm} (u : ArmUnit) (h : y ≠ x) :
    (s.setArm x u).arm y = s.arm y := by
  cases x <;> cases y <;> first | rfl | exact absurd rfl h

@[simp] theorem State.arm_setMonitor (s : State) (x : Arm) (m : Monitor) :
    (s.setMonitor x m).arm x = { s.arm x with monitor := m } := by
  simp [State.setMonitor]

theorem State.arm_setMonitor_of_ne (s : State) {x y : Arm} (m : Monitor) (h : y ≠ x) :
    (s.setMonitor x m).arm y = s.arm y := State.arm_setArm_of_ne s _ h

@[simp] theorem State.arm_setEvaluation (s : State) (x : Arm) (e : Option Evaluation) :
    (s.setEvaluation x e).arm x = { s.arm x with evaluation := e } := by
  simp [State.setEvaluation]

theorem State.arm_setEvaluation_of_ne (s : State) {x y : Arm} (e : Option Evaluation) (h : y ≠ x) :
    (s.setEvaluation x e).arm y = s.arm y := State.arm_setArm_of_ne s _ h

@[simp] theorem State.arm_setGuard (s : State) (x : Arm) (g : Guard) :
    (s.setGuard x g).arm x = { s.arm x with guard := g } := by
  simp [State.setGuard]

theorem State.arm_setGuard_of_ne (s : State) {x y : Arm} (g : Guard) (h : y ≠ x) :
    (s.setGuard x g).arm y = s.arm y := State.arm_setArm_of_ne s _ h

/-- The monitors do not move with a guard. -/
@[simp] theorem State.monitor_setGuard (s : State) (x y : Arm) (g : Guard) :
    ((s.setGuard x g).arm y).monitor = (s.arm y).monitor := by
  cases x <;> cases y <;> rfl

/-- The evaluation records do not move with a guard. -/
@[simp] theorem State.evaluation_setGuard (s : State) (x y : Arm) (g : Guard) :
    ((s.setGuard x g).arm y).evaluation = (s.arm y).evaluation := by
  cases x <;> cases y <;> rfl

/-- The guards do not move with a monitor. -/
@[simp] theorem State.guard_setMonitor (s : State) (x y : Arm) (m : Monitor) :
    ((s.setMonitor x m).arm y).guard = (s.arm y).guard := by
  cases x <;> cases y <;> rfl

/-- The guards do not move with an evaluation record. -/
@[simp] theorem State.guard_setEvaluation (s : State) (x y : Arm) (e : Option Evaluation) :
    ((s.setEvaluation x e).arm y).guard = (s.arm y).guard := by
  cases x <;> cases y <;> rfl

/-- The monitors do not move with an evaluation record. -/
@[simp] theorem State.monitor_setEvaluation (s : State) (x y : Arm) (e : Option Evaluation) :
    ((s.setEvaluation x e).arm y).monitor = (s.arm y).monitor := by
  cases x <;> cases y <;> rfl

/-! ### Setters of the ports -/

/-- `setPort` writes the ports alone. -/
@[simp] theorem State.setPort_frame (s : State) (p : Party) (q : Port) :
    (s.setPort p q).held = s.held ∧ (s.setPort p q).haltPinLow = s.haltPinLow ∧ (s.setPort p q).mode = s.mode ∧
    (s.setPort p q).epoch = s.epoch ∧ (s.setPort p q).haltLevel = s.haltLevel ∧
    (s.setPort p q).params = s.params ∧ (s.setPort p q).tiles = s.tiles ∧ (s.setPort p q).closing = s.closing ∧
    (s.setPort p q).claims = s.claims ∧ (s.setPort p q).queue = s.queue ∧ (s.setPort p q).armA = s.armA ∧
    (s.setPort p q).armB = s.armB ∧ (s.setPort p q).freeCount = s.freeCount ∧
    (s.setPort p q).pending = s.pending := by
  cases p <;> simp [State.setPort]

/-- `raise` writes the ports alone. -/
@[simp] theorem State.raise_frame (s : State) (p : Party) (n : Notice) :
    (s.raise p n).held = s.held ∧ (s.raise p n).haltPinLow = s.haltPinLow ∧ (s.raise p n).mode = s.mode ∧
    (s.raise p n).epoch = s.epoch ∧ (s.raise p n).haltLevel = s.haltLevel ∧ (s.raise p n).params = s.params ∧
    (s.raise p n).tiles = s.tiles ∧ (s.raise p n).closing = s.closing ∧ (s.raise p n).claims = s.claims ∧
    (s.raise p n).queue = s.queue ∧ (s.raise p n).armA = s.armA ∧ (s.raise p n).armB = s.armB ∧
    (s.raise p n).freeCount = s.freeCount ∧ (s.raise p n).pending = s.pending := by
  simp [State.raise]

/-- `shifts` writes the ports alone. -/
@[simp] theorem State.shifts_frame (s : State) (p : Party) (f : Frame) :
    (s.shifts p f).held = s.held ∧ (s.shifts p f).haltPinLow = s.haltPinLow ∧ (s.shifts p f).mode = s.mode ∧
    (s.shifts p f).epoch = s.epoch ∧ (s.shifts p f).haltLevel = s.haltLevel ∧
    (s.shifts p f).params = s.params ∧ (s.shifts p f).tiles = s.tiles ∧ (s.shifts p f).closing = s.closing ∧
    (s.shifts p f).claims = s.claims ∧ (s.shifts p f).queue = s.queue ∧ (s.shifts p f).armA = s.armA ∧
    (s.shifts p f).armB = s.armB ∧ (s.shifts p f).freeCount = s.freeCount ∧ (s.shifts p f).pending = s.pending := by
  simp [State.shifts]

/-- `placeReply` writes the ports alone. -/
@[simp] theorem State.placeReply_frame (s : State) (p : Party) (tag : BitVec 4) (kind : Byte) (a : Answer) :
    (s.placeReply p tag kind a).held = s.held ∧ (s.placeReply p tag kind a).haltPinLow = s.haltPinLow ∧
    (s.placeReply p tag kind a).mode = s.mode ∧ (s.placeReply p tag kind a).epoch = s.epoch ∧
    (s.placeReply p tag kind a).haltLevel = s.haltLevel ∧ (s.placeReply p tag kind a).params = s.params ∧
    (s.placeReply p tag kind a).tiles = s.tiles ∧ (s.placeReply p tag kind a).closing = s.closing ∧
    (s.placeReply p tag kind a).claims = s.claims ∧ (s.placeReply p tag kind a).queue = s.queue ∧
    (s.placeReply p tag kind a).armA = s.armA ∧ (s.placeReply p tag kind a).armB = s.armB ∧
    (s.placeReply p tag kind a).freeCount = s.freeCount ∧ (s.placeReply p tag kind a).pending = s.pending := by
  simp [State.placeReply]

/-- `placeRestarted` writes the ports alone. -/
@[simp] theorem State.placeRestarted_frame (s : State) (p : Party) :
    (s.placeRestarted p).held = s.held ∧ (s.placeRestarted p).haltPinLow = s.haltPinLow ∧
    (s.placeRestarted p).mode = s.mode ∧ (s.placeRestarted p).epoch = s.epoch ∧
    (s.placeRestarted p).haltLevel = s.haltLevel ∧ (s.placeRestarted p).params = s.params ∧
    (s.placeRestarted p).tiles = s.tiles ∧ (s.placeRestarted p).closing = s.closing ∧
    (s.placeRestarted p).claims = s.claims ∧ (s.placeRestarted p).queue = s.queue ∧
    (s.placeRestarted p).armA = s.armA ∧ (s.placeRestarted p).armB = s.armB ∧
    (s.placeRestarted p).freeCount = s.freeCount ∧ (s.placeRestarted p).pending = s.pending := by
  simp [State.placeRestarted]

@[simp] theorem State.port_setPort (s : State) (p : Party) (q : Port) : (s.setPort p q).port p = q := by
  cases p <;> rfl

theorem State.port_setPort_of_ne (s : State) {p r : Party} (q : Port) (h : r ≠ p) :
    (s.setPort p q).port r = s.port r := by
  cases p <;> cases r <;> first | rfl | exact absurd rfl h

@[simp] theorem State.port_raise (s : State) (p : Party) (n : Notice) :
    (s.raise p n).port p = (s.port p).raise n := by
  simp [State.raise]

theorem State.port_raise_of_ne (s : State) {p r : Party} (n : Notice) (h : r ≠ p) :
    (s.raise p n).port r = s.port r := State.port_setPort_of_ne s _ h

@[simp] theorem State.port_shifts (s : State) (p : Party) (f : Frame) :
    (s.shifts p f).port p = { s.port p with shifted := f } := by
  simp [State.shifts]

@[simp] theorem State.port_placeReply (s : State) (p : Party) (tag : BitVec 4) (kind : Byte) (a : Answer) :
    (s.placeReply p tag kind a).port p =
      { s.port p with reply := .normal (s.replyBody p tag kind a), processing := none, reported := false } := by
  simp [State.placeReply]

theorem State.port_placeReply_of_ne (s : State) {p r : Party} (tag : BitVec 4) (kind : Byte) (a : Answer) (h : r ≠ p) :
    (s.placeReply p tag kind a).port r = s.port r := State.port_setPort_of_ne s _ h

@[simp] theorem State.port_placeRestarted (s : State) (p : Party) :
    (s.placeRestarted p).port p =
      { s.port p with reply := .restarted (s.replyBody p 0 0 ⟨.done, false, .empty⟩) } := by
  simp [State.placeRestarted]

/-- A raised notice leaves the request in processing with its stage, the reply buffer and the output record of every
port. -/
@[simp] theorem State.raise_port_rest (s : State) (p r : Party) (n : Notice) :
    ((s.raise p n).port r).processing = (s.port r).processing ∧ ((s.raise p n).port r).reported = (s.port r).reported ∧
      ((s.raise p n).port r).reply = (s.port r).reply ∧ ((s.raise p n).port r).shifted = (s.port r).shifted := by
  cases p <;> cases r <;> simp [State.raise, State.setPort, State.port, Port.raise]

/-- A placed reply leaves every attention set and line and every output record. -/
@[simp] theorem State.placeReply_attention (s : State) (p r : Party) (tag : BitVec 4) (kind : Byte) (a : Answer) :
    ((s.placeReply p tag kind a).port r).attention = (s.port r).attention ∧
      ((s.placeReply p tag kind a).port r).line = (s.port r).line ∧
      ((s.placeReply p tag kind a).port r).shifted = (s.port r).shifted := by
  cases p <;> cases r <;> simp [State.placeReply, State.setPort, State.port]

/-! ### Setters of the claim table -/

/-- `setSlot` writes the claim table alone. -/
@[simp] theorem State.setSlot_frame (s : State) (p : Party) (k : SlotNo) (c : Claim) :
    (s.setSlot p k c).held = s.held ∧ (s.setSlot p k c).haltPinLow = s.haltPinLow ∧
    (s.setSlot p k c).mode = s.mode ∧ (s.setSlot p k c).epoch = s.epoch ∧
    (s.setSlot p k c).haltLevel = s.haltLevel ∧ (s.setSlot p k c).params = s.params ∧
    (s.setSlot p k c).tiles = s.tiles ∧ (s.setSlot p k c).closing = s.closing ∧
    (s.setSlot p k c).queue = s.queue ∧ (s.setSlot p k c).armA = s.armA ∧ (s.setSlot p k c).armB = s.armB ∧
    (s.setSlot p k c).portA = s.portA ∧ (s.setSlot p k c).portB = s.portB ∧ (s.setSlot p k c).portC = s.portC ∧
    (s.setSlot p k c).freeCount = s.freeCount ∧ (s.setSlot p k c).pending = s.pending := by
  simp [State.setSlot]

/-- `mapSlots` writes the claim table alone. -/
@[simp] theorem State.mapSlots_frame (s : State) (p : Party) (f : Claim → Claim) :
    (s.mapSlots p f).held = s.held ∧ (s.mapSlots p f).haltPinLow = s.haltPinLow ∧
    (s.mapSlots p f).mode = s.mode ∧ (s.mapSlots p f).epoch = s.epoch ∧
    (s.mapSlots p f).haltLevel = s.haltLevel ∧ (s.mapSlots p f).params = s.params ∧
    (s.mapSlots p f).tiles = s.tiles ∧ (s.mapSlots p f).closing = s.closing ∧
    (s.mapSlots p f).queue = s.queue ∧ (s.mapSlots p f).armA = s.armA ∧ (s.mapSlots p f).armB = s.armB ∧
    (s.mapSlots p f).portA = s.portA ∧ (s.mapSlots p f).portB = s.portB ∧ (s.mapSlots p f).portC = s.portC ∧
    (s.mapSlots p f).freeCount = s.freeCount ∧ (s.mapSlots p f).pending = s.pending := by
  simp [State.mapSlots]

/-- `setTripTiles` writes the claim table alone. -/
@[simp] theorem State.setTripTiles_frame (s : State) (x : Arm) (ts : List Tile) :
    (s.setTripTiles x ts).held = s.held ∧ (s.setTripTiles x ts).haltPinLow = s.haltPinLow ∧
    (s.setTripTiles x ts).mode = s.mode ∧ (s.setTripTiles x ts).epoch = s.epoch ∧
    (s.setTripTiles x ts).haltLevel = s.haltLevel ∧ (s.setTripTiles x ts).params = s.params ∧
    (s.setTripTiles x ts).tiles = s.tiles ∧ (s.setTripTiles x ts).closing = s.closing ∧
    (s.setTripTiles x ts).queue = s.queue ∧ (s.setTripTiles x ts).armA = s.armA ∧
    (s.setTripTiles x ts).armB = s.armB ∧ (s.setTripTiles x ts).portA = s.portA ∧
    (s.setTripTiles x ts).portB = s.portB ∧ (s.setTripTiles x ts).portC = s.portC ∧
    (s.setTripTiles x ts).freeCount = s.freeCount ∧ (s.setTripTiles x ts).pending = s.pending := by
  simp [State.setTripTiles]

@[simp] theorem Slots.get_set (c : Slots) (k : SlotNo) (x : Claim) : (c.set k x).get k = x := by
  match k with
  | 0 => rfl
  | 1 => rfl
  | 2 => rfl
  | 3 => rfl

theorem Slots.get_set_of_ne (c : Slots) {k j : SlotNo} (x : Claim) (h : j ≠ k) : (c.set k x).get j = c.get j := by
  match k, j with
  | 0, 0 => exact absurd rfl h
  | 0, 1 => rfl
  | 0, 2 => rfl
  | 0, 3 => rfl
  | 1, 0 => rfl
  | 1, 1 => exact absurd rfl h
  | 1, 2 => rfl
  | 1, 3 => rfl
  | 2, 0 => rfl
  | 2, 1 => rfl
  | 2, 2 => exact absurd rfl h
  | 2, 3 => rfl
  | 3, 0 => rfl
  | 3, 1 => rfl
  | 3, 2 => rfl
  | 3, 3 => exact absurd rfl h

@[simp] theorem Slots.get_map (c : Slots) (f : Claim → Claim) (k : SlotNo) : (c.map f).get k = f (c.get k) := by
  match k with
  | 0 => rfl
  | 1 => rfl
  | 2 => rfl
  | 3 => rfl

@[simp] theorem ClaimTable.slots_setSlots (c : ClaimTable) (p : Party) (x : Slots) : (c.setSlots p x).slots p = x := by
  cases p <;> rfl

theorem ClaimTable.slots_setSlots_of_ne (c : ClaimTable) {p q : Party} (x : Slots) (h : q ≠ p) :
    (c.setSlots p x).slots q = c.slots q := by
  cases p <;> cases q <;> first | rfl | exact absurd rfl h

@[simp] theorem ClaimTable.trip_setSlots (c : ClaimTable) (p : Party) (x : Slots) (a : Arm) :
    (c.setSlots p x).trip a = c.trip a := by
  cases p <;> cases a <;> rfl

@[simp] theorem ClaimTable.slots_setTrip (c : ClaimTable) (a : Arm) (ts : List Tile) (p : Party) :
    (c.setTrip a ts).slots p = c.slots p := by
  cases p <;> cases a <;> rfl

@[simp] theorem ClaimTable.trip_setTrip (c : ClaimTable) (a : Arm) (ts : List Tile) : (c.setTrip a ts).trip a = ts := by
  cases a <;> rfl

theorem ClaimTable.trip_setTrip_of_ne (c : ClaimTable) {a b : Arm} (ts : List Tile) (h : b ≠ a) :
    (c.setTrip a ts).trip b = c.trip b := by
  cases a <;> cases b <;> first | rfl | exact absurd rfl h

@[simp] theorem State.slot_setSlot (s : State) (p : Party) (k : SlotNo) (c : Claim) : (s.setSlot p k c).slot p k = c := by
  simp [State.setSlot, State.slot]

theorem State.slot_setSlot_of_ne (s : State) (p : Party) {k j : SlotNo} (c : Claim) (h : j ≠ k) :
    (s.setSlot p k c).slot p j = s.slot p j := by
  simp [State.setSlot, State.slot, Slots.get_set_of_ne _ _ h]

theorem State.slot_setSlot_party (s : State) {p q : Party} (k j : SlotNo) (c : Claim) (h : q ≠ p) :
    (s.setSlot p k c).slot q j = s.slot q j := by
  simp [State.setSlot, State.slot, ClaimTable.slots_setSlots_of_ne _ _ h]

/-- The claim in a slot after a slot is written. -/
theorem State.slot_setSlot_eq (s : State) (p q : Party) (k j : SlotNo) (c : Claim) :
    (s.setSlot p k c).slot q j = if q = p ∧ j = k then c else s.slot q j := by
  by_cases hp : q = p
  · subst hp
    by_cases hk : j = k
    · subst hk; simp
    · simp [hk, State.slot_setSlot_of_ne s _ c hk]
  · simp [hp, State.slot_setSlot_party s k j c hp]

@[simp] theorem State.slot_mapSlots (s : State) (p : Party) (f : Claim → Claim) (k : SlotNo) :
    (s.mapSlots p f).slot p k = f (s.slot p k) := by
  simp [State.mapSlots, State.slot]

theorem State.slot_mapSlots_of_ne (s : State) {p q : Party} (f : Claim → Claim) (k : SlotNo) (h : q ≠ p) :
    (s.mapSlots p f).slot q k = s.slot q k := by
  simp [State.mapSlots, State.slot, ClaimTable.slots_setSlots_of_ne _ _ h]

@[simp] theorem State.tripTiles_setSlot (s : State) (p : Party) (k : SlotNo) (c : Claim) (x : Arm) :
    (s.setSlot p k c).tripTiles x = s.tripTiles x := by
  simp [State.setSlot, State.tripTiles]

@[simp] theorem State.tripTiles_mapSlots (s : State) (p : Party) (f : Claim → Claim) (x : Arm) :
    (s.mapSlots p f).tripTiles x = s.tripTiles x := by
  simp [State.mapSlots, State.tripTiles]

@[simp] theorem State.slot_setTripTiles (s : State) (x : Arm) (ts : List Tile) (p : Party) (k : SlotNo) :
    (s.setTripTiles x ts).slot p k = s.slot p k := by
  simp [State.setTripTiles, State.slot]

@[simp] theorem State.tripTiles_setTripTiles (s : State) (x : Arm) (ts : List Tile) :
    (s.setTripTiles x ts).tripTiles x = ts := by
  simp [State.setTripTiles, State.tripTiles]

theorem State.tripTiles_setTripTiles_of_ne (s : State) {x y : Arm} (ts : List Tile) (h : y ≠ x) :
    (s.setTripTiles x ts).tripTiles y = s.tripTiles y := by
  simp [State.setTripTiles, State.tripTiles, ClaimTable.trip_setTrip_of_ne _ _ h]

/-! ### Accessors through setters of the other groups -/


@[simp] theorem State.arm_setPort (s : State) (p : Party) (q : Port) (x : Arm) :
    (s.setPort p q).arm x = s.arm x := by
  cases x <;> simp [State.arm]

@[simp] theorem State.arm_raise (s : State) (p : Party) (n : Notice) (x : Arm) :
    (s.raise p n).arm x = s.arm x := by
  cases x <;> simp [State.arm]

@[simp] theorem State.arm_shifts (s : State) (p : Party) (f : Frame) (x : Arm) :
    (s.shifts p f).arm x = s.arm x := by
  cases x <;> simp [State.arm]

@[simp] theorem State.arm_placeReply (s : State) (p : Party) (tag : BitVec 4) (kind : Byte) (a : Answer) (x : Arm) :
    (s.placeReply p tag kind a).arm x = s.arm x := by
  cases x <;> simp [State.arm]

@[simp] theorem State.arm_placeRestarted (s : State) (p : Party) (x : Arm) :
    (s.placeRestarted p).arm x = s.arm x := by
  cases x <;> simp [State.arm]

@[simp] theorem State.arm_setSlot (s : State) (p : Party) (k : SlotNo) (c : Claim) (x : Arm) :
    (s.setSlot p k c).arm x = s.arm x := by
  cases x <;> simp [State.arm]

@[simp] theorem State.arm_mapSlots (s : State) (p : Party) (f : Claim → Claim) (x : Arm) :
    (s.mapSlots p f).arm x = s.arm x := by
  cases x <;> simp [State.arm]

@[simp] theorem State.arm_setTripTiles (s : State) (y : Arm) (ts : List Tile) (x : Arm) :
    (s.setTripTiles y ts).arm x = s.arm x := by
  cases x <;> simp [State.arm]

@[simp] theorem State.port_setArm (s : State) (x : Arm) (u : ArmUnit) (r : Party) :
    (s.setArm x u).port r = s.port r := by
  cases r <;> simp [State.port]

@[simp] theorem State.port_setMonitor (s : State) (x : Arm) (m : Monitor) (r : Party) :
    (s.setMonitor x m).port r = s.port r := by
  cases r <;> simp [State.port]

@[simp] theorem State.port_setEvaluation (s : State) (x : Arm) (e : Option Evaluation) (r : Party) :
    (s.setEvaluation x e).port r = s.port r := by
  cases r <;> simp [State.port]

@[simp] theorem State.port_setGuard (s : State) (x : Arm) (g : Guard) (r : Party) :
    (s.setGuard x g).port r = s.port r := by
  cases r <;> simp [State.port]

@[simp] theorem State.port_setSlot (s : State) (p : Party) (k : SlotNo) (c : Claim) (r : Party) :
    (s.setSlot p k c).port r = s.port r := by
  cases r <;> simp [State.port]

@[simp] theorem State.port_mapSlots (s : State) (p : Party) (f : Claim → Claim) (r : Party) :
    (s.mapSlots p f).port r = s.port r := by
  cases r <;> simp [State.port]

@[simp] theorem State.port_setTripTiles (s : State) (y : Arm) (ts : List Tile) (r : Party) :
    (s.setTripTiles y ts).port r = s.port r := by
  cases r <;> simp [State.port]

@[simp] theorem State.slot_setArm (s : State) (x : Arm) (u : ArmUnit) (r : Party) (j : SlotNo) :
    (s.setArm x u).slot r j = s.slot r j := by
  simp [State.slot]

@[simp] theorem State.tripTiles_setArm (s : State) (x : Arm) (u : ArmUnit) (y : Arm) :
    (s.setArm x u).tripTiles y = s.tripTiles y := by
  simp [State.tripTiles]

@[simp] theorem State.slot_setMonitor (s : State) (x : Arm) (m : Monitor) (r : Party) (j : SlotNo) :
    (s.setMonitor x m).slot r j = s.slot r j := by
  simp [State.slot]

@[simp] theorem State.tripTiles_setMonitor (s : State) (x : Arm) (m : Monitor) (y : Arm) :
    (s.setMonitor x m).tripTiles y = s.tripTiles y := by
  simp [State.tripTiles]

@[simp] theorem State.slot_setEvaluation (s : State) (x : Arm) (e : Option Evaluation) (r : Party) (j : SlotNo) :
    (s.setEvaluation x e).slot r j = s.slot r j := by
  simp [State.slot]

@[simp] theorem State.tripTiles_setEvaluation (s : State) (x : Arm) (e : Option Evaluation) (y : Arm) :
    (s.setEvaluation x e).tripTiles y = s.tripTiles y := by
  simp [State.tripTiles]

@[simp] theorem State.slot_setGuard (s : State) (x : Arm) (g : Guard) (r : Party) (j : SlotNo) :
    (s.setGuard x g).slot r j = s.slot r j := by
  simp [State.slot]

@[simp] theorem State.tripTiles_setGuard (s : State) (x : Arm) (g : Guard) (y : Arm) :
    (s.setGuard x g).tripTiles y = s.tripTiles y := by
  simp [State.tripTiles]

@[simp] theorem State.slot_setPort (s : State) (p : Party) (q : Port) (r : Party) (j : SlotNo) :
    (s.setPort p q).slot r j = s.slot r j := by
  simp [State.slot]

@[simp] theorem State.tripTiles_setPort (s : State) (p : Party) (q : Port) (y : Arm) :
    (s.setPort p q).tripTiles y = s.tripTiles y := by
  simp [State.tripTiles]

@[simp] theorem State.slot_raise (s : State) (p : Party) (n : Notice) (r : Party) (j : SlotNo) :
    (s.raise p n).slot r j = s.slot r j := by
  simp [State.slot]

@[simp] theorem State.tripTiles_raise (s : State) (p : Party) (n : Notice) (y : Arm) :
    (s.raise p n).tripTiles y = s.tripTiles y := by
  simp [State.tripTiles]

@[simp] theorem State.slot_shifts (s : State) (p : Party) (f : Frame) (r : Party) (j : SlotNo) :
    (s.shifts p f).slot r j = s.slot r j := by
  simp [State.slot]

@[simp] theorem State.tripTiles_shifts (s : State) (p : Party) (f : Frame) (y : Arm) :
    (s.shifts p f).tripTiles y = s.tripTiles y := by
  simp [State.tripTiles]

@[simp] theorem State.slot_placeReply (s : State) (p : Party) (tag : BitVec 4) (kind : Byte) (a : Answer) (r : Party) (j : SlotNo) :
    (s.placeReply p tag kind a).slot r j = s.slot r j := by
  simp [State.slot]

@[simp] theorem State.tripTiles_placeReply (s : State) (p : Party) (tag : BitVec 4) (kind : Byte) (a : Answer) (y : Arm) :
    (s.placeReply p tag kind a).tripTiles y = s.tripTiles y := by
  simp [State.tripTiles]

@[simp] theorem State.slot_placeRestarted (s : State) (p : Party) (r : Party) (j : SlotNo) :
    (s.placeRestarted p).slot r j = s.slot r j := by
  simp [State.slot]

@[simp] theorem State.tripTiles_placeRestarted (s : State) (p : Party) (y : Arm) :
    (s.placeRestarted p).tripTiles y = s.tripTiles y := by
  simp [State.tripTiles]

@[simp] theorem State.tile_setArm (s : State) (x : Arm) (u : ArmUnit) (z : Tile) :
    (s.setArm x u).tile z = s.tile z := by
  simp [State.tile]

@[simp] theorem State.tile_setMonitor (s : State) (x : Arm) (m : Monitor) (z : Tile) :
    (s.setMonitor x m).tile z = s.tile z := by
  simp [State.tile]

@[simp] theorem State.tile_setEvaluation (s : State) (x : Arm) (e : Option Evaluation) (z : Tile) :
    (s.setEvaluation x e).tile z = s.tile z := by
  simp [State.tile]

@[simp] theorem State.tile_setGuard (s : State) (x : Arm) (g : Guard) (z : Tile) :
    (s.setGuard x g).tile z = s.tile z := by
  simp [State.tile]

@[simp] theorem State.tile_setPort (s : State) (p : Party) (q : Port) (z : Tile) :
    (s.setPort p q).tile z = s.tile z := by
  simp [State.tile]

@[simp] theorem State.tile_raise (s : State) (p : Party) (n : Notice) (z : Tile) :
    (s.raise p n).tile z = s.tile z := by
  simp [State.tile]

@[simp] theorem State.tile_shifts (s : State) (p : Party) (f : Frame) (z : Tile) :
    (s.shifts p f).tile z = s.tile z := by
  simp [State.tile]

@[simp] theorem State.tile_placeReply (s : State) (p : Party) (tag : BitVec 4) (kind : Byte) (a : Answer) (z : Tile) :
    (s.placeReply p tag kind a).tile z = s.tile z := by
  simp [State.tile]

@[simp] theorem State.tile_placeRestarted (s : State) (p : Party) (z : Tile) :
    (s.placeRestarted p).tile z = s.tile z := by
  simp [State.tile]

@[simp] theorem State.tile_setSlot (s : State) (p : Party) (k : SlotNo) (c : Claim) (z : Tile) :
    (s.setSlot p k c).tile z = s.tile z := by
  simp [State.tile]

@[simp] theorem State.tile_mapSlots (s : State) (p : Party) (f : Claim → Claim) (z : Tile) :
    (s.mapSlots p f).tile z = s.tile z := by
  simp [State.tile]

@[simp] theorem State.tile_setTripTiles (s : State) (y : Arm) (ts : List Tile) (z : Tile) :
    (s.setTripTiles y ts).tile z = s.tile z := by
  simp [State.tile]

end Sys2Proof.Machine
end

