-- ==== Sys2Proof/Laws/Frames.lean ====
section
/-! SUPPORT. The frames of the compound operations: which fields of State each of them leaves as they were. -/

namespace Sys2Proof.Machine

open Sys2Proof

/-- `lowerClosing` writes the closing-tile count and, for BLOCK_DONE, the Cell Port. -/
@[simp] theorem State.lowerClosing_frame (s : State) (n : Nat) :
    (s.lowerClosing n).held = s.held ∧ (s.lowerClosing n).haltPinLow = s.haltPinLow ∧
    (s.lowerClosing n).mode = s.mode ∧ (s.lowerClosing n).epoch = s.epoch ∧
    (s.lowerClosing n).haltLevel = s.haltLevel ∧ (s.lowerClosing n).params = s.params ∧
    (s.lowerClosing n).tiles = s.tiles ∧ (s.lowerClosing n).claims = s.claims ∧
    (s.lowerClosing n).queue = s.queue ∧ (s.lowerClosing n).armA = s.armA ∧ (s.lowerClosing n).armB = s.armB ∧
    (s.lowerClosing n).freeCount = s.freeCount ∧ (s.lowerClosing n).pending = s.pending := by
  simp only [State.lowerClosing]; split <;> simp

/-- `addHolds` writes the Tile Map alone. -/
@[simp] theorem State.addHolds_frame (s : State) (p : Party) (f : Tile → Bool) :
    (s.addHolds p f).held = s.held ∧ (s.addHolds p f).haltPinLow = s.haltPinLow ∧
    (s.addHolds p f).mode = s.mode ∧ (s.addHolds p f).epoch = s.epoch ∧
    (s.addHolds p f).haltLevel = s.haltLevel ∧ (s.addHolds p f).params = s.params ∧
    (s.addHolds p f).closing = s.closing ∧ (s.addHolds p f).claims = s.claims ∧
    (s.addHolds p f).queue = s.queue ∧ (s.addHolds p f).armA = s.armA ∧ (s.addHolds p f).armB = s.armB ∧
    (s.addHolds p f).portA = s.portA ∧ (s.addHolds p f).portB = s.portB ∧ (s.addHolds p f).portC = s.portC ∧
    (s.addHolds p f).freeCount = s.freeCount ∧ (s.addHolds p f).pending = s.pending := by
  simp [State.addHolds]

/-- `dropHolds` writes the Tile Map, the closing-tile count and the Cell Port. -/
@[simp] theorem State.dropHolds_frame (s : State) (f : Tile → Bool) :
    (s.dropHolds f).held = s.held ∧ (s.dropHolds f).haltPinLow = s.haltPinLow ∧ (s.dropHolds f).mode = s.mode ∧
    (s.dropHolds f).epoch = s.epoch ∧ (s.dropHolds f).haltLevel = s.haltLevel ∧
    (s.dropHolds f).params = s.params ∧ (s.dropHolds f).claims = s.claims ∧ (s.dropHolds f).queue = s.queue ∧
    (s.dropHolds f).armA = s.armA ∧ (s.dropHolds f).armB = s.armB ∧ (s.dropHolds f).freeCount = s.freeCount ∧
    (s.dropHolds f).pending = s.pending := by
  simp [State.dropHolds]

/-- `dequeue` writes the queue alone. -/
@[simp] theorem State.dequeue_frame (s : State) (n : ClaimName) :
    (s.dequeue n).held = s.held ∧ (s.dequeue n).haltPinLow = s.haltPinLow ∧ (s.dequeue n).mode = s.mode ∧
    (s.dequeue n).epoch = s.epoch ∧ (s.dequeue n).haltLevel = s.haltLevel ∧ (s.dequeue n).params = s.params ∧
    (s.dequeue n).tiles = s.tiles ∧ (s.dequeue n).closing = s.closing ∧ (s.dequeue n).claims = s.claims ∧
    (s.dequeue n).armA = s.armA ∧ (s.dequeue n).armB = s.armB ∧ (s.dequeue n).portA = s.portA ∧
    (s.dequeue n).portB = s.portB ∧ (s.dequeue n).portC = s.portC ∧ (s.dequeue n).freeCount = s.freeCount ∧
    (s.dequeue n).pending = s.pending := by
  simp [State.dequeue]

/-- `enqueue` writes the claim table and the queue. -/
@[simp] theorem State.enqueue_frame (s : State) (p : Party) (k : SlotNo) (r : Rect) (l : Option SlotNo) :
    (s.enqueue p k r l).held = s.held ∧ (s.enqueue p k r l).haltPinLow = s.haltPinLow ∧
    (s.enqueue p k r l).mode = s.mode ∧ (s.enqueue p k r l).epoch = s.epoch ∧
    (s.enqueue p k r l).haltLevel = s.haltLevel ∧ (s.enqueue p k r l).params = s.params ∧
    (s.enqueue p k r l).tiles = s.tiles ∧ (s.enqueue p k r l).closing = s.closing ∧
    (s.enqueue p k r l).armA = s.armA ∧ (s.enqueue p k r l).armB = s.armB ∧
    (s.enqueue p k r l).portA = s.portA ∧ (s.enqueue p k r l).portB = s.portB ∧
    (s.enqueue p k r l).portC = s.portC ∧ (s.enqueue p k r l).freeCount = s.freeCount ∧
    (s.enqueue p k r l).pending = s.pending := by
  simp [State.enqueue]

/-- `removePending` writes the claim table and the queue. -/
@[simp] theorem State.removePending_frame (s : State) (n : ClaimName) :
    (s.removePending n).held = s.held ∧ (s.removePending n).haltPinLow = s.haltPinLow ∧
    (s.removePending n).mode = s.mode ∧ (s.removePending n).epoch = s.epoch ∧
    (s.removePending n).haltLevel = s.haltLevel ∧ (s.removePending n).params = s.params ∧
    (s.removePending n).tiles = s.tiles ∧ (s.removePending n).closing = s.closing ∧
    (s.removePending n).armA = s.armA ∧ (s.removePending n).armB = s.armB ∧
    (s.removePending n).portA = s.portA ∧ (s.removePending n).portB = s.portB ∧
    (s.removePending n).portC = s.portC ∧ (s.removePending n).freeCount = s.freeCount ∧
    (s.removePending n).pending = s.pending := by
  simp [State.removePending]

/-- `cancelPending` writes the claim table, the queue and the ports. -/
@[simp] theorem State.cancelPending_frame (s : State) (p : Party) (c : CancelCause) :
    (s.cancelPending p c).held = s.held ∧ (s.cancelPending p c).haltPinLow = s.haltPinLow ∧
    (s.cancelPending p c).mode = s.mode ∧ (s.cancelPending p c).epoch = s.epoch ∧
    (s.cancelPending p c).haltLevel = s.haltLevel ∧ (s.cancelPending p c).params = s.params ∧
    (s.cancelPending p c).tiles = s.tiles ∧ (s.cancelPending p c).closing = s.closing ∧
    (s.cancelPending p c).armA = s.armA ∧ (s.cancelPending p c).armB = s.armB ∧
    (s.cancelPending p c).freeCount = s.freeCount ∧ (s.cancelPending p c).pending = s.pending := by
  simp only [State.cancelPending]; split <;> simp

/-- A release writes the Tile Map, the closing-tile count, the claim table and the Cell Port. -/
@[simp] theorem State.releaseSlot_frame (s : State) (p : Party) (k : SlotNo) :
    (s.releaseSlot p k |>.1).held = s.held ∧ (s.releaseSlot p k |>.1).haltPinLow = s.haltPinLow ∧
    (s.releaseSlot p k |>.1).mode = s.mode ∧ (s.releaseSlot p k |>.1).epoch = s.epoch ∧
    (s.releaseSlot p k |>.1).haltLevel = s.haltLevel ∧ (s.releaseSlot p k |>.1).params = s.params ∧
    (s.releaseSlot p k |>.1).queue = s.queue ∧ (s.releaseSlot p k |>.1).armA = s.armA ∧
    (s.releaseSlot p k |>.1).armB = s.armB ∧ (s.releaseSlot p k |>.1).freeCount = s.freeCount ∧
    (s.releaseSlot p k |>.1).pending = s.pending := by
  simp only [State.releaseSlot]; split <;> simp

/-- The release of a trip claim writes what any release writes. -/
@[simp] theorem State.releaseTrip_frame (s : State) (x : Arm) :
    (s.releaseTrip x |>.1).held = s.held ∧ (s.releaseTrip x |>.1).haltPinLow = s.haltPinLow ∧
    (s.releaseTrip x |>.1).mode = s.mode ∧ (s.releaseTrip x |>.1).epoch = s.epoch ∧
    (s.releaseTrip x |>.1).haltLevel = s.haltLevel ∧ (s.releaseTrip x |>.1).params = s.params ∧
    (s.releaseTrip x |>.1).queue = s.queue ∧ (s.releaseTrip x |>.1).armA = s.armA ∧
    (s.releaseTrip x |>.1).armB = s.armB ∧ (s.releaseTrip x |>.1).freeCount = s.freeCount ∧
    (s.releaseTrip x |>.1).pending = s.pending := by
  simp [State.releaseTrip]

/-- `startDrain` writes the claim table alone. -/
@[simp] theorem State.startDrain_frame (s : State) (p : Party) (i t : SlotNo) :
    (s.startDrain p i t).held = s.held ∧ (s.startDrain p i t).haltPinLow = s.haltPinLow ∧
    (s.startDrain p i t).mode = s.mode ∧ (s.startDrain p i t).epoch = s.epoch ∧
    (s.startDrain p i t).haltLevel = s.haltLevel ∧ (s.startDrain p i t).params = s.params ∧
    (s.startDrain p i t).tiles = s.tiles ∧ (s.startDrain p i t).closing = s.closing ∧
    (s.startDrain p i t).queue = s.queue ∧ (s.startDrain p i t).armA = s.armA ∧
    (s.startDrain p i t).armB = s.armB ∧ (s.startDrain p i t).portA = s.portA ∧
    (s.startDrain p i t).portB = s.portB ∧ (s.startDrain p i t).portC = s.portC ∧
    (s.startDrain p i t).freeCount = s.freeCount ∧ (s.startDrain p i t).pending = s.pending := by
  simp only [State.startDrain]; split <;> simp

/-- A grant writes the grid, the claim table, the queue and, through a release, the Cell Port. -/
@[simp] theorem State.grant_frame (s : State) (n : ClaimName) (r : Rect) (l : Option SlotNo) :
    (s.grant n r l |>.1).held = s.held ∧ (s.grant n r l |>.1).haltPinLow = s.haltPinLow ∧
    (s.grant n r l |>.1).mode = s.mode ∧ (s.grant n r l |>.1).epoch = s.epoch ∧
    (s.grant n r l |>.1).haltLevel = s.haltLevel ∧ (s.grant n r l |>.1).params = s.params ∧
    (s.grant n r l |>.1).armA = s.armA ∧ (s.grant n r l |>.1).armB = s.armB ∧
    (s.grant n r l |>.1).freeCount = s.freeCount ∧ (s.grant n r l |>.1).pending = s.pending := by
  rcases l with _ | i
  · simp [State.grant]
  · rcases n with ⟨_ | _ | _, k⟩ <;> simp [State.grant]

/-- One entry of a scan writes what a grant writes, and its GRANTED notice. -/
@[simp] theorem scanEntry_frame (acc : State × Bool) (n : ClaimName) :
    (scanEntry acc n |>.1).held = acc.1.held ∧ (scanEntry acc n |>.1).haltPinLow = acc.1.haltPinLow ∧
    (scanEntry acc n |>.1).mode = acc.1.mode ∧ (scanEntry acc n |>.1).epoch = acc.1.epoch ∧
    (scanEntry acc n |>.1).haltLevel = acc.1.haltLevel ∧ (scanEntry acc n |>.1).params = acc.1.params ∧
    (scanEntry acc n |>.1).armA = acc.1.armA ∧ (scanEntry acc n |>.1).armB = acc.1.armB ∧
    (scanEntry acc n |>.1).freeCount = acc.1.freeCount ∧ (scanEntry acc n |>.1).pending = acc.1.pending := by
  simp only [scanEntry]; split
  · simp
  · split <;> simp

/-- A frame that every entry of a fold keeps, the fold keeps. -/
theorem foldl_keeps {α β γ : Type} (g : α → γ) (f : α → β → α) (h : ∀ a b, g (f a b) = g a) (l : List β) (a : α) :
    g (l.foldl f a) = g a := by
  induction l generalizing a with
  | nil => rfl
  | cons b l ih => simp [ih, h]

/-- One pass of the grant scan. -/
@[simp] theorem State.scanPass_frame (s : State) :
    (s.scanPass |>.1).held = s.held ∧ (s.scanPass |>.1).haltPinLow = s.haltPinLow ∧
    (s.scanPass |>.1).mode = s.mode ∧ (s.scanPass |>.1).epoch = s.epoch ∧
    (s.scanPass |>.1).haltLevel = s.haltLevel ∧ (s.scanPass |>.1).params = s.params ∧
    (s.scanPass |>.1).armA = s.armA ∧ (s.scanPass |>.1).armB = s.armB ∧
    (s.scanPass |>.1).freeCount = s.freeCount ∧ (s.scanPass |>.1).pending = s.pending := by
  simp only [State.scanPass]
  refine ⟨foldl_keeps (fun a : State × Bool => a.1.held) scanEntry (by simp) s.queue (s, false),
    foldl_keeps (fun a : State × Bool => a.1.haltPinLow) scanEntry (by simp) s.queue (s, false),
    foldl_keeps (fun a : State × Bool => a.1.mode) scanEntry (by simp) s.queue (s, false),
    foldl_keeps (fun a : State × Bool => a.1.epoch) scanEntry (by simp) s.queue (s, false),
    foldl_keeps (fun a : State × Bool => a.1.haltLevel) scanEntry (by simp) s.queue (s, false),
    foldl_keeps (fun a : State × Bool => a.1.params) scanEntry (by simp) s.queue (s, false),
    foldl_keeps (fun a : State × Bool => a.1.armA) scanEntry (by simp) s.queue (s, false),
    foldl_keeps (fun a : State × Bool => a.1.armB) scanEntry (by simp) s.queue (s, false),
    foldl_keeps (fun a : State × Bool => a.1.freeCount) scanEntry (by simp) s.queue (s, false),
    foldl_keeps (fun a : State × Bool => a.1.pending) scanEntry (by simp) s.queue (s, false)⟩

/-- The passes of the grant scan. -/
@[simp] theorem scanPasses_frame (n : Nat) (s : State) :
    (scanPasses n s).held = s.held ∧ (scanPasses n s).haltPinLow = s.haltPinLow ∧
    (scanPasses n s).mode = s.mode ∧ (scanPasses n s).epoch = s.epoch ∧
    (scanPasses n s).haltLevel = s.haltLevel ∧ (scanPasses n s).params = s.params ∧
    (scanPasses n s).armA = s.armA ∧ (scanPasses n s).armB = s.armB ∧
    (scanPasses n s).freeCount = s.freeCount ∧ (scanPasses n s).pending = s.pending := by
  induction n generalizing s with
  | zero => simp [scanPasses]
  | succ n ih =>
    simp only [scanPasses]
    split <;> simp [ih]

/-- The grant scan writes the grid, the claim table, the queue and the ports. -/
@[simp] theorem State.grantScan_frame (s : State) :
    (s.grantScan).held = s.held ∧ (s.grantScan).haltPinLow = s.haltPinLow ∧ (s.grantScan).mode = s.mode ∧
    (s.grantScan).epoch = s.epoch ∧ (s.grantScan).haltLevel = s.haltLevel ∧ (s.grantScan).params = s.params ∧
    (s.grantScan).armA = s.armA ∧ (s.grantScan).armB = s.armB ∧ (s.grantScan).freeCount = s.freeCount ∧
    (s.grantScan).pending = s.pending := by
  simp [State.grantScan]

/-- A withdrawal by BLOCK writes the claim table, the queue and the ports. -/
@[simp] theorem withdrawOver_frame (f : Tile → Bool) (s : State) (n : ClaimName) :
    (withdrawOver f s n).held = s.held ∧ (withdrawOver f s n).haltPinLow = s.haltPinLow ∧
    (withdrawOver f s n).mode = s.mode ∧ (withdrawOver f s n).epoch = s.epoch ∧
    (withdrawOver f s n).haltLevel = s.haltLevel ∧ (withdrawOver f s n).params = s.params ∧
    (withdrawOver f s n).tiles = s.tiles ∧ (withdrawOver f s n).closing = s.closing ∧
    (withdrawOver f s n).armA = s.armA ∧ (withdrawOver f s n).armB = s.armB ∧
    (withdrawOver f s n).freeCount = s.freeCount ∧ (withdrawOver f s n).pending = s.pending := by
  simp only [withdrawOver]; split
  · simp
  · split <;> simp

/-- The withdrawals of one BLOCK. -/
@[simp] theorem withdrawAll_frame (f : Tile → Bool) (l : List ClaimName) (s : State) :
    (l.foldl (withdrawOver f) s).held = s.held ∧ (l.foldl (withdrawOver f) s).haltPinLow = s.haltPinLow ∧
    (l.foldl (withdrawOver f) s).mode = s.mode ∧ (l.foldl (withdrawOver f) s).epoch = s.epoch ∧
    (l.foldl (withdrawOver f) s).haltLevel = s.haltLevel ∧ (l.foldl (withdrawOver f) s).params = s.params ∧
    (l.foldl (withdrawOver f) s).tiles = s.tiles ∧ (l.foldl (withdrawOver f) s).closing = s.closing ∧
    (l.foldl (withdrawOver f) s).armA = s.armA ∧ (l.foldl (withdrawOver f) s).armB = s.armB ∧
    (l.foldl (withdrawOver f) s).freeCount = s.freeCount ∧ (l.foldl (withdrawOver f) s).pending = s.pending := by
  refine ⟨foldl_keeps (fun a : State => a.held) (withdrawOver f) (by simp) l s,
    foldl_keeps (fun a : State => a.haltPinLow) (withdrawOver f) (by simp) l s,
    foldl_keeps (fun a : State => a.mode) (withdrawOver f) (by simp) l s,
    foldl_keeps (fun a : State => a.epoch) (withdrawOver f) (by simp) l s,
    foldl_keeps (fun a : State => a.haltLevel) (withdrawOver f) (by simp) l s,
    foldl_keeps (fun a : State => a.params) (withdrawOver f) (by simp) l s,
    foldl_keeps (fun a : State => a.tiles) (withdrawOver f) (by simp) l s,
    foldl_keeps (fun a : State => a.closing) (withdrawOver f) (by simp) l s,
    foldl_keeps (fun a : State => a.armA) (withdrawOver f) (by simp) l s,
    foldl_keeps (fun a : State => a.armB) (withdrawOver f) (by simp) l s,
    foldl_keeps (fun a : State => a.freeCount) (withdrawOver f) (by simp) l s,
    foldl_keeps (fun a : State => a.pending) (withdrawOver f) (by simp) l s⟩

/-- The drain writes the grid, the claim table, the queue and the ports. -/
@[simp] theorem State.drain_frame (s : State) (x : Arm) :
    (s.drain x).held = s.held ∧ (s.drain x).haltPinLow = s.haltPinLow ∧ (s.drain x).mode = s.mode ∧
    (s.drain x).epoch = s.epoch ∧ (s.drain x).haltLevel = s.haltLevel ∧ (s.drain x).params = s.params ∧
    (s.drain x).armA = s.armA ∧ (s.drain x).armB = s.armB ∧ (s.drain x).freeCount = s.freeCount ∧
    (s.drain x).pending = s.pending := by
  simp only [State.drain]; split
  · simp
  · split
    · simp
    · split <;> simp

/-- Step 1 of a trip writes the Guard Controller. -/
@[simp] theorem State.tripGuard_frame (s : State) (x : Arm) (c : Cause) (own : Bool) (t : Option Tile) :
    (s.tripGuard x c own t).held = s.held ∧ (s.tripGuard x c own t).haltPinLow = s.haltPinLow ∧
    (s.tripGuard x c own t).mode = s.mode ∧ (s.tripGuard x c own t).epoch = s.epoch ∧
    (s.tripGuard x c own t).haltLevel = s.haltLevel ∧ (s.tripGuard x c own t).params = s.params ∧
    (s.tripGuard x c own t).tiles = s.tiles ∧ (s.tripGuard x c own t).closing = s.closing ∧
    (s.tripGuard x c own t).claims = s.claims ∧ (s.tripGuard x c own t).queue = s.queue ∧
    (s.tripGuard x c own t).portA = s.portA ∧ (s.tripGuard x c own t).portB = s.portB ∧
    (s.tripGuard x c own t).portC = s.portC ∧ (s.tripGuard x c own t).freeCount = s.freeCount ∧
    (s.tripGuard x c own t).pending = s.pending := by
  simp [State.tripGuard]

/-- Step 3 of a trip writes the Tile Map, the claim table and the trip record. -/
@[simp] theorem State.buildTripClaim_frame (s : State) (x : Arm) :
    (s.buildTripClaim x).held = s.held ∧ (s.buildTripClaim x).haltPinLow = s.haltPinLow ∧
    (s.buildTripClaim x).mode = s.mode ∧ (s.buildTripClaim x).epoch = s.epoch ∧
    (s.buildTripClaim x).haltLevel = s.haltLevel ∧ (s.buildTripClaim x).params = s.params ∧
    (s.buildTripClaim x).closing = s.closing ∧ (s.buildTripClaim x).queue = s.queue ∧
    (s.buildTripClaim x).portA = s.portA ∧ (s.buildTripClaim x).portB = s.portB ∧
    (s.buildTripClaim x).portC = s.portC ∧ (s.buildTripClaim x).freeCount = s.freeCount ∧
    (s.buildTripClaim x).pending = s.pending := by
  simp [State.buildTripClaim]

/-- Steps 1 to 3 of a trip. -/
@[simp] theorem State.tripBegin_frame (s : State) (x : Arm) (c : Cause) (own : Bool) (t : Option Tile) :
    (s.tripBegin x c own t).held = s.held ∧ (s.tripBegin x c own t).haltPinLow = s.haltPinLow ∧
    (s.tripBegin x c own t).mode = s.mode ∧ (s.tripBegin x c own t).epoch = s.epoch ∧
    (s.tripBegin x c own t).haltLevel = s.haltLevel ∧ (s.tripBegin x c own t).params = s.params ∧
    (s.tripBegin x c own t).closing = s.closing ∧ (s.tripBegin x c own t).freeCount = s.freeCount ∧
    (s.tripBegin x c own t).pending = s.pending := by
  simp [State.tripBegin]

/-- INTRUSION writes the Cell Port. -/
@[simp] theorem State.raiseIntrusion_frame (s : State) (x : Arm) (t : Option Tile) :
    (s.raiseIntrusion x t).held = s.held ∧ (s.raiseIntrusion x t).haltPinLow = s.haltPinLow ∧
    (s.raiseIntrusion x t).mode = s.mode ∧ (s.raiseIntrusion x t).epoch = s.epoch ∧
    (s.raiseIntrusion x t).haltLevel = s.haltLevel ∧ (s.raiseIntrusion x t).params = s.params ∧
    (s.raiseIntrusion x t).tiles = s.tiles ∧ (s.raiseIntrusion x t).closing = s.closing ∧
    (s.raiseIntrusion x t).claims = s.claims ∧ (s.raiseIntrusion x t).queue = s.queue ∧
    (s.raiseIntrusion x t).armA = s.armA ∧ (s.raiseIntrusion x t).armB = s.armB ∧
    (s.raiseIntrusion x t).freeCount = s.freeCount ∧ (s.raiseIntrusion x t).pending = s.pending := by
  simp only [State.raiseIntrusion]; split <;> simp

/-- Step 6 of a trip writes the ports. -/
@[simp] theorem State.announceTrip_frame (s : State) (x : Arm) (c : Cause) :
    (s.announceTrip x c).held = s.held ∧ (s.announceTrip x c).haltPinLow = s.haltPinLow ∧
    (s.announceTrip x c).mode = s.mode ∧ (s.announceTrip x c).epoch = s.epoch ∧
    (s.announceTrip x c).haltLevel = s.haltLevel ∧ (s.announceTrip x c).params = s.params ∧
    (s.announceTrip x c).tiles = s.tiles ∧ (s.announceTrip x c).closing = s.closing ∧
    (s.announceTrip x c).claims = s.claims ∧ (s.announceTrip x c).queue = s.queue ∧
    (s.announceTrip x c).armA = s.armA ∧ (s.announceTrip x c).armB = s.armB ∧
    (s.announceTrip x c).freeCount = s.freeCount ∧ (s.announceTrip x c).pending = s.pending := by
  simp [State.announceTrip]

/-- An imposed trip. -/
@[simp] theorem State.tripImposed_frame (s : State) (x : Arm) (c : Cause) (t : Option Tile) :
    (s.tripImposed x c t).held = s.held ∧ (s.tripImposed x c t).haltPinLow = s.haltPinLow ∧
    (s.tripImposed x c t).mode = s.mode ∧ (s.tripImposed x c t).epoch = s.epoch ∧
    (s.tripImposed x c t).haltLevel = s.haltLevel ∧ (s.tripImposed x c t).params = s.params ∧
    (s.tripImposed x c t).closing = s.closing ∧ (s.tripImposed x c t).freeCount = s.freeCount ∧
    (s.tripImposed x c t).pending = s.pending := by
  simp [State.tripImposed]

/-- The contact of a trip. -/
@[simp] theorem State.contactTrip_frame (s : State) (x : Arm) :
    (s.contactTrip x).held = s.held ∧ (s.contactTrip x).haltPinLow = s.haltPinLow ∧
    (s.contactTrip x).mode = s.mode ∧ (s.contactTrip x).epoch = s.epoch ∧
    (s.contactTrip x).haltLevel = s.haltLevel ∧ (s.contactTrip x).params = s.params ∧
    (s.contactTrip x).closing = s.closing ∧ (s.contactTrip x).freeCount = s.freeCount ∧
    (s.contactTrip x).pending = s.pending := by
  simp only [State.contactTrip]; split
  · simp
  · split <;> simp

/-- The scope of a trip. -/
@[simp] theorem State.scopeTrip_frame (s : State) (x : Arm) (c : Cause) :
    (s.scopeTrip x c).held = s.held ∧ (s.scopeTrip x c).haltPinLow = s.haltPinLow ∧
    (s.scopeTrip x c).mode = s.mode ∧ (s.scopeTrip x c).epoch = s.epoch ∧
    (s.scopeTrip x c).haltLevel = s.haltLevel ∧ (s.scopeTrip x c).params = s.params ∧
    (s.scopeTrip x c).closing = s.closing ∧ (s.scopeTrip x c).freeCount = s.freeCount ∧
    (s.scopeTrip x c).pending = s.pending := by
  simp only [State.scopeTrip]; split <;> simp

/-- A whole trip. -/
@[simp] theorem State.tripOwn_frame (s : State) (x : Arm) (c : Cause) :
    (s.tripOwn x c).held = s.held ∧ (s.tripOwn x c).haltPinLow = s.haltPinLow ∧ (s.tripOwn x c).mode = s.mode ∧
    (s.tripOwn x c).epoch = s.epoch ∧ (s.tripOwn x c).haltLevel = s.haltLevel ∧
    (s.tripOwn x c).params = s.params ∧ (s.tripOwn x c).freeCount = s.freeCount ∧
    (s.tripOwn x c).pending = s.pending := by
  simp [State.tripOwn]

/-- The re-arming run writes the Guard Controller and its port. -/
@[simp] theorem State.countClean_frame (s : State) (x : Arm) (e : Evaluation) :
    (s.countClean x e).held = s.held ∧ (s.countClean x e).haltPinLow = s.haltPinLow ∧
    (s.countClean x e).mode = s.mode ∧ (s.countClean x e).epoch = s.epoch ∧
    (s.countClean x e).haltLevel = s.haltLevel ∧ (s.countClean x e).params = s.params ∧
    (s.countClean x e).tiles = s.tiles ∧ (s.countClean x e).closing = s.closing ∧
    (s.countClean x e).claims = s.claims ∧ (s.countClean x e).queue = s.queue ∧
    (s.countClean x e).freeCount = s.freeCount ∧ (s.countClean x e).pending = s.pending := by
  simp only [State.countClean]; split
  · split <;> simp
  · simp

/-- The Guard Controller's action on an evaluation. -/
@[simp] theorem State.guardActs_frame (s : State) (x : Arm) (e : Evaluation) (st : Start) :
    (s.guardActs x e st).held = s.held ∧ (s.guardActs x e st).haltPinLow = s.haltPinLow ∧
    (s.guardActs x e st).mode = s.mode ∧ (s.guardActs x e st).epoch = s.epoch ∧
    (s.guardActs x e st).haltLevel = s.haltLevel ∧ (s.guardActs x e st).params = s.params ∧
    (s.guardActs x e st).freeCount = s.freeCount ∧ (s.guardActs x e st).pending = s.pending := by
  simp only [State.guardActs]; split
  · simp
  · split <;> simp
  · split
    · simp
    · split <;> simp
  · split <;> simp

/-- An evaluation with its hand-off. -/
@[simp] theorem State.evaluateReport_frame (s : State) (x : Arm) (r : Report) (m : Nat) (st : Start) :
    (s.evaluateReport x r m st).held = s.held ∧ (s.evaluateReport x r m st).haltPinLow = s.haltPinLow ∧
    (s.evaluateReport x r m st).mode = s.mode ∧ (s.evaluateReport x r m st).epoch = s.epoch ∧
    (s.evaluateReport x r m st).haltLevel = s.haltLevel ∧ (s.evaluateReport x r m st).params = s.params ∧
    (s.evaluateReport x r m st).freeCount = s.freeCount ∧ (s.evaluateReport x r m st).pending = s.pending := by
  simp only [State.evaluateReport]; split
  · split <;> simp
  · split <;> simp

/-- Going OFFLINE writes the arm. -/
@[simp] theorem State.goOffline_frame (s : State) (x : Arm) :
    (s.goOffline x).held = s.held ∧ (s.goOffline x).haltPinLow = s.haltPinLow ∧ (s.goOffline x).mode = s.mode ∧
    (s.goOffline x).epoch = s.epoch ∧ (s.goOffline x).haltLevel = s.haltLevel ∧
    (s.goOffline x).params = s.params ∧ (s.goOffline x).tiles = s.tiles ∧ (s.goOffline x).closing = s.closing ∧
    (s.goOffline x).claims = s.claims ∧ (s.goOffline x).queue = s.queue ∧ (s.goOffline x).portA = s.portA ∧
    (s.goOffline x).portB = s.portB ∧ (s.goOffline x).portC = s.portC ∧
    (s.goOffline x).freeCount = s.freeCount ∧ (s.goOffline x).pending = s.pending := by
  simp [State.goOffline]

/-- A trip by HALT. -/
@[simp] theorem State.haltArm_frame (s : State) (x : Arm) :
    (s.haltArm x).held = s.held ∧ (s.haltArm x).haltPinLow = s.haltPinLow ∧ (s.haltArm x).mode = s.mode ∧
    (s.haltArm x).epoch = s.epoch ∧ (s.haltArm x).haltLevel = s.haltLevel ∧ (s.haltArm x).params = s.params ∧
    (s.haltArm x).closing = s.closing ∧ (s.haltArm x).freeCount = s.freeCount ∧
    (s.haltArm x).pending = s.pending := by
  simp only [State.haltArm]; split <;> simp

/-- Entry to HALTED leaves the rest of the Mode Controller. -/
@[simp] theorem State.haltCell_frame (s : State) (src : HaltSource) :
    (s.haltCell src).held = s.held ∧ (s.haltCell src).haltPinLow = s.haltPinLow ∧
    (s.haltCell src).epoch = s.epoch ∧ (s.haltCell src).haltLevel = s.haltLevel ∧
    (s.haltCell src).params = s.params ∧ (s.haltCell src).freeCount = s.freeCount ∧
    (s.haltCell src).pending = s.pending := by
  simp [State.haltCell]

/-- A fresh report. -/
@[simp] theorem State.freshReport_frame (s : State) (x : Arm) (r : Report) :
    (s.freshReport x r).held = s.held ∧ (s.freshReport x r).haltPinLow = s.haltPinLow ∧
    (s.freshReport x r).mode = s.mode ∧ (s.freshReport x r).epoch = s.epoch ∧
    (s.freshReport x r).haltLevel = s.haltLevel ∧ (s.freshReport x r).params = s.params ∧
    (s.freshReport x r).freeCount = s.freeCount ∧ (s.freshReport x r).pending = s.pending := by
  simp only [State.freshReport]; split <;> simp

/-- A report that reaches its Report Monitor. -/
@[simp] theorem State.armReport_frame (s : State) (x : Arm) (r : Report) :
    (s.armReport x r).held = s.held ∧ (s.armReport x r).haltPinLow = s.haltPinLow ∧
    (s.armReport x r).mode = s.mode ∧ (s.armReport x r).epoch = s.epoch ∧
    (s.armReport x r).haltLevel = s.haltLevel ∧ (s.armReport x r).params = s.params ∧
    (s.armReport x r).freeCount = s.freeCount ∧ (s.armReport x r).pending = s.pending := by
  simp only [State.armReport]; split <;> simp

/-- The report section of a request. -/
@[simp] theorem State.takeReport_frame (s : State) (p : Party) (r : Option Report) :
    (s.takeReport p r).held = s.held ∧ (s.takeReport p r).haltPinLow = s.haltPinLow ∧
    (s.takeReport p r).mode = s.mode ∧ (s.takeReport p r).epoch = s.epoch ∧
    (s.takeReport p r).haltLevel = s.haltLevel ∧ (s.takeReport p r).params = s.params ∧
    (s.takeReport p r).freeCount = s.freeCount ∧ (s.takeReport p r).pending = s.pending := by
  simp only [State.takeReport]; split <;> simp

/-- The evaluation at an expiry. -/
@[simp] theorem State.evaluateLast_frame (s : State) (x : Arm) :
    (s.evaluateLast x).held = s.held ∧ (s.evaluateLast x).haltPinLow = s.haltPinLow ∧
    (s.evaluateLast x).mode = s.mode ∧ (s.evaluateLast x).epoch = s.epoch ∧
    (s.evaluateLast x).haltLevel = s.haltLevel ∧ (s.evaluateLast x).params = s.params ∧
    (s.evaluateLast x).freeCount = s.freeCount ∧ (s.evaluateLast x).pending = s.pending := by
  simp only [State.evaluateLast]; split <;> simp

/-- An expiry in ARMING. -/
@[simp] theorem State.expiryInArming_frame (s : State) (x : Arm) :
    (s.expiryInArming x).held = s.held ∧ (s.expiryInArming x).haltPinLow = s.haltPinLow ∧
    (s.expiryInArming x).mode = s.mode ∧ (s.expiryInArming x).epoch = s.epoch ∧
    (s.expiryInArming x).haltLevel = s.haltLevel ∧ (s.expiryInArming x).params = s.params ∧
    (s.expiryInArming x).tiles = s.tiles ∧ (s.expiryInArming x).closing = s.closing ∧
    (s.expiryInArming x).claims = s.claims ∧ (s.expiryInArming x).queue = s.queue ∧
    (s.expiryInArming x).portA = s.portA ∧ (s.expiryInArming x).portB = s.portB ∧
    (s.expiryInArming x).portC = s.portC ∧ (s.expiryInArming x).freeCount = s.freeCount ∧
    (s.expiryInArming x).pending = s.pending := by
  simp only [State.expiryInArming]; split <;> simp

/-- The stale evaluation. -/
@[simp] theorem State.staleExpiry_frame (s : State) (x : Arm) :
    (s.staleExpiry x).held = s.held ∧ (s.staleExpiry x).haltPinLow = s.haltPinLow ∧
    (s.staleExpiry x).mode = s.mode ∧ (s.staleExpiry x).epoch = s.epoch ∧
    (s.staleExpiry x).haltLevel = s.haltLevel ∧ (s.staleExpiry x).params = s.params ∧
    (s.staleExpiry x).freeCount = s.freeCount ∧ (s.staleExpiry x).pending = s.pending := by
  simp only [State.staleExpiry]; split
  · split <;> simp
  · simp

/-- An expiry of the report-period timer. -/
@[simp] theorem State.periodExpiry_frame (s : State) (x : Arm) :
    (s.periodExpiry x).held = s.held ∧ (s.periodExpiry x).haltPinLow = s.haltPinLow ∧
    (s.periodExpiry x).mode = s.mode ∧ (s.periodExpiry x).epoch = s.epoch ∧
    (s.periodExpiry x).haltLevel = s.haltLevel ∧ (s.periodExpiry x).params = s.params ∧
    (s.periodExpiry x).freeCount = s.freeCount ∧ (s.periodExpiry x).pending = s.pending := by
  simp only [State.periodExpiry]; split
  · simp
  · split <;> simp

/-- Time passing moves timers and wait ages. -/
@[simp] theorem State.elapse_frame (s : State) (n : Nat) :
    (s.elapse n).held = s.held ∧ (s.elapse n).haltPinLow = s.haltPinLow ∧ (s.elapse n).mode = s.mode ∧
    (s.elapse n).epoch = s.epoch ∧ (s.elapse n).haltLevel = s.haltLevel ∧ (s.elapse n).params = s.params ∧
    (s.elapse n).tiles = s.tiles ∧ (s.elapse n).closing = s.closing ∧ (s.elapse n).queue = s.queue ∧
    (s.elapse n).portA = s.portA ∧ (s.elapse n).portB = s.portB ∧ (s.elapse n).portC = s.portC ∧
    (s.elapse n).freeCount = s.freeCount ∧ (s.elapse n).pending = s.pending := by
  simp [State.elapse]

/-- One release of an eviction. -/
@[simp] theorem evictSlot_frame (p : Party) (acc : State × Nat × Nat) (k : SlotNo) :
    (evictSlot p acc k |>.1).held = acc.1.held ∧ (evictSlot p acc k |>.1).haltPinLow = acc.1.haltPinLow ∧
    (evictSlot p acc k |>.1).mode = acc.1.mode ∧ (evictSlot p acc k |>.1).epoch = acc.1.epoch ∧
    (evictSlot p acc k |>.1).haltLevel = acc.1.haltLevel ∧ (evictSlot p acc k |>.1).params = acc.1.params ∧
    (evictSlot p acc k |>.1).queue = acc.1.queue ∧ (evictSlot p acc k |>.1).armA = acc.1.armA ∧
    (evictSlot p acc k |>.1).armB = acc.1.armB ∧ (evictSlot p acc k |>.1).freeCount = acc.1.freeCount ∧
    (evictSlot p acc k |>.1).pending = acc.1.pending := by
  simp only [evictSlot]; split <;> simp

/-- The release of the trip claim in an eviction. -/
@[simp] theorem evictTrip_frame (x : Arm) (acc : State × Nat × Nat) :
    (evictTrip x acc |>.1).held = acc.1.held ∧ (evictTrip x acc |>.1).haltPinLow = acc.1.haltPinLow ∧
    (evictTrip x acc |>.1).mode = acc.1.mode ∧ (evictTrip x acc |>.1).epoch = acc.1.epoch ∧
    (evictTrip x acc |>.1).haltLevel = acc.1.haltLevel ∧ (evictTrip x acc |>.1).params = acc.1.params ∧
    (evictTrip x acc |>.1).queue = acc.1.queue ∧ (evictTrip x acc |>.1).armA = acc.1.armA ∧
    (evictTrip x acc |>.1).armB = acc.1.armB ∧ (evictTrip x acc |>.1).freeCount = acc.1.freeCount ∧
    (evictTrip x acc |>.1).pending = acc.1.pending := by
  simp only [evictTrip]; split <;> simp

/-- The claims of an eviction. -/
@[simp] theorem State.evictClaims_frame (s : State) (x : Arm) :
    (s.evictClaims x |>.1).held = s.held ∧ (s.evictClaims x |>.1).haltPinLow = s.haltPinLow ∧
    (s.evictClaims x |>.1).mode = s.mode ∧ (s.evictClaims x |>.1).epoch = s.epoch ∧
    (s.evictClaims x |>.1).haltLevel = s.haltLevel ∧ (s.evictClaims x |>.1).params = s.params ∧
    (s.evictClaims x |>.1).armA = s.armA ∧ (s.evictClaims x |>.1).armB = s.armB ∧
    (s.evictClaims x |>.1).freeCount = s.freeCount ∧ (s.evictClaims x |>.1).pending = s.pending := by
  simp [State.evictClaims, slotNos]

/-- Step 1 of STOP. -/
@[simp] theorem State.clearClaims_frame (s : State) :
    (s.clearClaims).held = s.held ∧ (s.clearClaims).haltPinLow = s.haltPinLow ∧ (s.clearClaims).mode = s.mode ∧
    (s.clearClaims).epoch = s.epoch ∧ (s.clearClaims).haltLevel = s.haltLevel ∧
    (s.clearClaims).params = s.params ∧ (s.clearClaims).armA = s.armA ∧ (s.clearClaims).armB = s.armB ∧
    (s.clearClaims).freeCount = s.freeCount ∧ (s.clearClaims).pending = s.pending := by
  simp only [State.clearClaims]; split <;> simp

/-- YIELD writes the ports. -/
@[simp] theorem State.raiseYield_frame (s : State) (p : Party) (k : SlotNo) (r : Rect) :
    (s.raiseYield p k r).held = s.held ∧ (s.raiseYield p k r).haltPinLow = s.haltPinLow ∧
    (s.raiseYield p k r).mode = s.mode ∧ (s.raiseYield p k r).epoch = s.epoch ∧
    (s.raiseYield p k r).haltLevel = s.haltLevel ∧ (s.raiseYield p k r).params = s.params ∧
    (s.raiseYield p k r).tiles = s.tiles ∧ (s.raiseYield p k r).closing = s.closing ∧
    (s.raiseYield p k r).claims = s.claims ∧ (s.raiseYield p k r).queue = s.queue ∧
    (s.raiseYield p k r).armA = s.armA ∧ (s.raiseYield p k r).armB = s.armB ∧
    (s.raiseYield p k r).freeCount = s.freeCount ∧ (s.raiseYield p k r).pending = s.pending := by
  refine ⟨foldl_keeps (fun a : State => a.held) _ (fun a b => by split <;> simp) parties s,
    foldl_keeps (fun a : State => a.haltPinLow) _ (fun a b => by split <;> simp) parties s,
    foldl_keeps (fun a : State => a.mode) _ (fun a b => by split <;> simp) parties s,
    foldl_keeps (fun a : State => a.epoch) _ (fun a b => by split <;> simp) parties s,
    foldl_keeps (fun a : State => a.haltLevel) _ (fun a b => by split <;> simp) parties s,
    foldl_keeps (fun a : State => a.params) _ (fun a b => by split <;> simp) parties s,
    foldl_keeps (fun a : State => a.tiles) _ (fun a b => by split <;> simp) parties s,
    foldl_keeps (fun a : State => a.closing) _ (fun a b => by split <;> simp) parties s,
    foldl_keeps (fun a : State => a.claims) _ (fun a b => by split <;> simp) parties s,
    foldl_keeps (fun a : State => a.queue) _ (fun a b => by split <;> simp) parties s,
    foldl_keeps (fun a : State => a.armA) _ (fun a b => by split <;> simp) parties s,
    foldl_keeps (fun a : State => a.armB) _ (fun a b => by split <;> simp) parties s,
    foldl_keeps (fun a : State => a.freeCount) _ (fun a b => by split <;> simp) parties s,
    foldl_keeps (fun a : State => a.pending) _ (fun a b => by split <;> simp) parties s⟩

end Sys2Proof.Machine
end

