-- ==== Sys2Proof/Laws/Arms.lean ====
section
/-! SUPPORT. The accessors of State (arm, port, slot, tripTiles, tile) through the compound operations that do not write what
they read, and what trips do to each arm. -/

namespace Sys2Proof.Machine

open Sys2Proof

@[simp] theorem arm_lowerClosing (s : State) (n : Nat) (z : Arm) :
    (s.lowerClosing n).arm z = s.arm z := by
  cases z <;> simp [State.arm]

@[simp] theorem slot_lowerClosing (s : State) (n : Nat) (q : Party) (j : SlotNo) :
    (s.lowerClosing n).slot q j = s.slot q j := by
  simp [State.slot]

@[simp] theorem tripTiles_lowerClosing (s : State) (n : Nat) (z : Arm) :
    (s.lowerClosing n).tripTiles z = s.tripTiles z := by
  simp [State.tripTiles]

@[simp] theorem tile_lowerClosing (s : State) (n : Nat) (z : Tile) :
    (s.lowerClosing n).tile z = s.tile z := by
  simp [State.tile]

@[simp] theorem arm_addHolds (s : State) (p : Party) (f : Tile → Bool) (z : Arm) :
    (s.addHolds p f).arm z = s.arm z := by
  cases z <;> simp [State.arm]

@[simp] theorem port_addHolds (s : State) (p : Party) (f : Tile → Bool) (z : Party) :
    (s.addHolds p f).port z = s.port z := by
  cases z <;> simp [State.port]

@[simp] theorem slot_addHolds (s : State) (p : Party) (f : Tile → Bool) (q : Party) (j : SlotNo) :
    (s.addHolds p f).slot q j = s.slot q j := by
  simp [State.slot]

@[simp] theorem tripTiles_addHolds (s : State) (p : Party) (f : Tile → Bool) (z : Arm) :
    (s.addHolds p f).tripTiles z = s.tripTiles z := by
  simp [State.tripTiles]

@[simp] theorem arm_dropHolds (s : State) (f : Tile → Bool) (z : Arm) :
    (s.dropHolds f).arm z = s.arm z := by
  cases z <;> simp [State.arm]

@[simp] theorem slot_dropHolds (s : State) (f : Tile → Bool) (q : Party) (j : SlotNo) :
    (s.dropHolds f).slot q j = s.slot q j := by
  simp [State.slot]

@[simp] theorem tripTiles_dropHolds (s : State) (f : Tile → Bool) (z : Arm) :
    (s.dropHolds f).tripTiles z = s.tripTiles z := by
  simp [State.tripTiles]

@[simp] theorem arm_dequeue (s : State) (n : ClaimName) (z : Arm) :
    (s.dequeue n).arm z = s.arm z := by
  cases z <;> simp [State.arm]

@[simp] theorem port_dequeue (s : State) (n : ClaimName) (z : Party) :
    (s.dequeue n).port z = s.port z := by
  cases z <;> simp [State.port]

@[simp] theorem slot_dequeue (s : State) (n : ClaimName) (q : Party) (j : SlotNo) :
    (s.dequeue n).slot q j = s.slot q j := by
  simp [State.slot]

@[simp] theorem tripTiles_dequeue (s : State) (n : ClaimName) (z : Arm) :
    (s.dequeue n).tripTiles z = s.tripTiles z := by
  simp [State.tripTiles]

@[simp] theorem tile_dequeue (s : State) (n : ClaimName) (z : Tile) :
    (s.dequeue n).tile z = s.tile z := by
  simp [State.tile]

@[simp] theorem arm_enqueue (s : State) (p : Party) (k : SlotNo) (r : Rect) (l : Option SlotNo) (z : Arm) :
    (s.enqueue p k r l).arm z = s.arm z := by
  cases z <;> simp [State.arm]

@[simp] theorem port_enqueue (s : State) (p : Party) (k : SlotNo) (r : Rect) (l : Option SlotNo) (z : Party) :
    (s.enqueue p k r l).port z = s.port z := by
  cases z <;> simp [State.port]

@[simp] theorem tile_enqueue (s : State) (p : Party) (k : SlotNo) (r : Rect) (l : Option SlotNo) (z : Tile) :
    (s.enqueue p k r l).tile z = s.tile z := by
  simp [State.tile]

@[simp] theorem arm_removePending (s : State) (n : ClaimName) (z : Arm) :
    (s.removePending n).arm z = s.arm z := by
  cases z <;> simp [State.arm]

@[simp] theorem port_removePending (s : State) (n : ClaimName) (z : Party) :
    (s.removePending n).port z = s.port z := by
  cases z <;> simp [State.port]

@[simp] theorem tile_removePending (s : State) (n : ClaimName) (z : Tile) :
    (s.removePending n).tile z = s.tile z := by
  simp [State.tile]

@[simp] theorem arm_cancelPending (s : State) (p : Party) (c : CancelCause) (z : Arm) :
    (s.cancelPending p c).arm z = s.arm z := by
  cases z <;> simp [State.arm]

@[simp] theorem tile_cancelPending (s : State) (p : Party) (c : CancelCause) (z : Tile) :
    (s.cancelPending p c).tile z = s.tile z := by
  simp [State.tile]

@[simp] theorem arm_releaseSlot (s : State) (p : Party) (k : SlotNo) (z : Arm) :
    (s.releaseSlot p k |>.1).arm z = s.arm z := by
  cases z <;> simp [State.arm]

@[simp] theorem arm_releaseTrip (s : State) (x : Arm) (z : Arm) :
    (s.releaseTrip x |>.1).arm z = s.arm z := by
  cases z <;> simp [State.arm]

@[simp] theorem arm_startDrain (s : State) (p : Party) (i t : SlotNo) (z : Arm) :
    (s.startDrain p i t).arm z = s.arm z := by
  cases z <;> simp [State.arm]

@[simp] theorem port_startDrain (s : State) (p : Party) (i t : SlotNo) (z : Party) :
    (s.startDrain p i t).port z = s.port z := by
  cases z <;> simp [State.port]

@[simp] theorem tile_startDrain (s : State) (p : Party) (i t : SlotNo) (z : Tile) :
    (s.startDrain p i t).tile z = s.tile z := by
  simp [State.tile]

@[simp] theorem arm_grant (s : State) (n : ClaimName) (r : Rect) (l : Option SlotNo) (z : Arm) :
    (s.grant n r l |>.1).arm z = s.arm z := by
  cases z <;> simp [State.arm]

@[simp] theorem arm_scanEntry (acc : State × Bool) (n : ClaimName) (z : Arm) :
    (scanEntry acc n |>.1).arm z = acc.1.arm z := by
  cases z <;> simp [State.arm]

@[simp] theorem arm_scanPass (s : State) (z : Arm) :
    (s.scanPass |>.1).arm z = s.arm z := by
  cases z <;> simp [State.arm]

@[simp] theorem arm_scanPasses (n : Nat) (s : State) (z : Arm) :
    (scanPasses n s).arm z = s.arm z := by
  cases z <;> simp [State.arm]

@[simp] theorem arm_grantScan (s : State) (z : Arm) :
    (s.grantScan).arm z = s.arm z := by
  cases z <;> simp [State.arm]

@[simp] theorem arm_withdrawOver (f : Tile → Bool) (s : State) (n : ClaimName) (z : Arm) :
    (withdrawOver f s n).arm z = s.arm z := by
  cases z <;> simp [State.arm]

@[simp] theorem tile_withdrawOver (f : Tile → Bool) (s : State) (n : ClaimName) (z : Tile) :
    (withdrawOver f s n).tile z = s.tile z := by
  simp [State.tile]

@[simp] theorem arm_withdrawAll (f : Tile → Bool) (l : List ClaimName) (s : State) (z : Arm) :
    (l.foldl (withdrawOver f) s).arm z = s.arm z := by
  cases z <;> simp [State.arm]

@[simp] theorem tile_withdrawAll (f : Tile → Bool) (l : List ClaimName) (s : State) (z : Tile) :
    (l.foldl (withdrawOver f) s).tile z = s.tile z := by
  simp [State.tile]

@[simp] theorem arm_drain (s : State) (x : Arm) (z : Arm) :
    (s.drain x).arm z = s.arm z := by
  cases z <;> simp [State.arm]

@[simp] theorem port_tripGuard (s : State) (x : Arm) (c : Cause) (own : Bool) (t : Option Tile) (z : Party) :
    (s.tripGuard x c own t).port z = s.port z := by
  cases z <;> simp [State.port]

@[simp] theorem slot_tripGuard (s : State) (x : Arm) (c : Cause) (own : Bool) (t : Option Tile) (q : Party) (j : SlotNo) :
    (s.tripGuard x c own t).slot q j = s.slot q j := by
  simp [State.slot]

@[simp] theorem tripTiles_tripGuard (s : State) (x : Arm) (c : Cause) (own : Bool) (t : Option Tile) (z : Arm) :
    (s.tripGuard x c own t).tripTiles z = s.tripTiles z := by
  simp [State.tripTiles]

@[simp] theorem tile_tripGuard (s : State) (x : Arm) (c : Cause) (own : Bool) (t : Option Tile) (z : Tile) :
    (s.tripGuard x c own t).tile z = s.tile z := by
  simp [State.tile]

@[simp] theorem port_buildTripClaim (s : State) (x : Arm) (z : Party) :
    (s.buildTripClaim x).port z = s.port z := by
  cases z <;> simp [State.port]

@[simp] theorem arm_raiseIntrusion (s : State) (x : Arm) (t : Option Tile) (z : Arm) :
    (s.raiseIntrusion x t).arm z = s.arm z := by
  cases z <;> simp [State.arm]

@[simp] theorem slot_raiseIntrusion (s : State) (x : Arm) (t : Option Tile) (q : Party) (j : SlotNo) :
    (s.raiseIntrusion x t).slot q j = s.slot q j := by
  simp [State.slot]

@[simp] theorem tripTiles_raiseIntrusion (s : State) (x : Arm) (t : Option Tile) (z : Arm) :
    (s.raiseIntrusion x t).tripTiles z = s.tripTiles z := by
  simp [State.tripTiles]

@[simp] theorem tile_raiseIntrusion (s : State) (x : Arm) (t : Option Tile) (z : Tile) :
    (s.raiseIntrusion x t).tile z = s.tile z := by
  simp [State.tile]

@[simp] theorem arm_announceTrip (s : State) (x : Arm) (c : Cause) (z : Arm) :
    (s.announceTrip x c).arm z = s.arm z := by
  cases z <;> simp [State.arm]

@[simp] theorem slot_announceTrip (s : State) (x : Arm) (c : Cause) (q : Party) (j : SlotNo) :
    (s.announceTrip x c).slot q j = s.slot q j := by
  simp [State.slot]

@[simp] theorem tripTiles_announceTrip (s : State) (x : Arm) (c : Cause) (z : Arm) :
    (s.announceTrip x c).tripTiles z = s.tripTiles z := by
  simp [State.tripTiles]

@[simp] theorem tile_announceTrip (s : State) (x : Arm) (c : Cause) (z : Tile) :
    (s.announceTrip x c).tile z = s.tile z := by
  simp [State.tile]

@[simp] theorem slot_countClean (s : State) (x : Arm) (e : Evaluation) (q : Party) (j : SlotNo) :
    (s.countClean x e).slot q j = s.slot q j := by
  simp [State.slot]

@[simp] theorem tripTiles_countClean (s : State) (x : Arm) (e : Evaluation) (z : Arm) :
    (s.countClean x e).tripTiles z = s.tripTiles z := by
  simp [State.tripTiles]

@[simp] theorem tile_countClean (s : State) (x : Arm) (e : Evaluation) (z : Tile) :
    (s.countClean x e).tile z = s.tile z := by
  simp [State.tile]

@[simp] theorem port_goOffline (s : State) (x : Arm) (z : Party) :
    (s.goOffline x).port z = s.port z := by
  cases z <;> simp [State.port]

@[simp] theorem slot_goOffline (s : State) (x : Arm) (q : Party) (j : SlotNo) :
    (s.goOffline x).slot q j = s.slot q j := by
  simp [State.slot]

@[simp] theorem tripTiles_goOffline (s : State) (x : Arm) (z : Arm) :
    (s.goOffline x).tripTiles z = s.tripTiles z := by
  simp [State.tripTiles]

@[simp] theorem tile_goOffline (s : State) (x : Arm) (z : Tile) :
    (s.goOffline x).tile z = s.tile z := by
  simp [State.tile]

@[simp] theorem port_expiryInArming (s : State) (x : Arm) (z : Party) :
    (s.expiryInArming x).port z = s.port z := by
  cases z <;> simp [State.port]

@[simp] theorem slot_expiryInArming (s : State) (x : Arm) (q : Party) (j : SlotNo) :
    (s.expiryInArming x).slot q j = s.slot q j := by
  simp [State.slot]

@[simp] theorem tripTiles_expiryInArming (s : State) (x : Arm) (z : Arm) :
    (s.expiryInArming x).tripTiles z = s.tripTiles z := by
  simp [State.tripTiles]

@[simp] theorem tile_expiryInArming (s : State) (x : Arm) (z : Tile) :
    (s.expiryInArming x).tile z = s.tile z := by
  simp [State.tile]

@[simp] theorem port_elapse (s : State) (n : Nat) (z : Party) :
    (s.elapse n).port z = s.port z := by
  cases z <;> simp [State.port]

@[simp] theorem tile_elapse (s : State) (n : Nat) (z : Tile) :
    (s.elapse n).tile z = s.tile z := by
  simp [State.tile]

@[simp] theorem arm_evictSlot (p : Party) (acc : State × Nat × Nat) (k : SlotNo) (z : Arm) :
    (evictSlot p acc k |>.1).arm z = acc.1.arm z := by
  cases z <;> simp [State.arm]

@[simp] theorem arm_evictTrip (x : Arm) (acc : State × Nat × Nat) (z : Arm) :
    (evictTrip x acc |>.1).arm z = acc.1.arm z := by
  cases z <;> simp [State.arm]

@[simp] theorem arm_evictClaims (s : State) (x : Arm) (z : Arm) :
    (s.evictClaims x |>.1).arm z = s.arm z := by
  cases z <;> simp [State.arm]

@[simp] theorem arm_clearClaims (s : State) (z : Arm) :
    (s.clearClaims).arm z = s.arm z := by
  cases z <;> simp [State.arm]

@[simp] theorem arm_raiseYield (s : State) (p : Party) (k : SlotNo) (r : Rect) (z : Arm) :
    (s.raiseYield p k r).arm z = s.arm z := by
  cases z <;> simp [State.arm]

@[simp] theorem slot_raiseYield (s : State) (p : Party) (k : SlotNo) (r : Rect) (q : Party) (j : SlotNo) :
    (s.raiseYield p k r).slot q j = s.slot q j := by
  simp [State.slot]

@[simp] theorem tripTiles_raiseYield (s : State) (p : Party) (k : SlotNo) (r : Rect) (z : Arm) :
    (s.raiseYield p k r).tripTiles z = s.tripTiles z := by
  simp [State.tripTiles]

@[simp] theorem tile_raiseYield (s : State) (p : Party) (k : SlotNo) (r : Rect) (z : Tile) :
    (s.raiseYield p k r).tile z = s.tile z := by
  simp [State.tile]

/-! ### What trips leave of each arm -/

/-- Step 1 of a trip leaves the monitors and the evaluation records. -/
@[simp] theorem parts_tripGuard (s : State) (x : Arm) (c : Cause) (own : Bool) (t : Option Tile) (y : Arm) :
    ((s.tripGuard x c own t).arm y).monitor = (s.arm y).monitor ∧
      ((s.tripGuard x c own t).arm y).evaluation = (s.arm y).evaluation := by
  simp [State.tripGuard]

/-- Step 3 of a trip leaves the monitors and the evaluation records. -/
@[simp] theorem parts_buildTripClaim (s : State) (x y : Arm) :
    ((s.buildTripClaim x).arm y).monitor = (s.arm y).monitor ∧
      ((s.buildTripClaim x).arm y).evaluation = (s.arm y).evaluation := by
  simp [State.buildTripClaim]

/-- Steps 1 to 3 of a trip leave the monitors and the evaluation records. -/
@[simp] theorem parts_tripBegin (s : State) (x : Arm) (c : Cause) (own : Bool) (t : Option Tile) (y : Arm) :
    ((s.tripBegin x c own t).arm y).monitor = (s.arm y).monitor ∧
      ((s.tripBegin x c own t).arm y).evaluation = (s.arm y).evaluation := by
  simp [State.tripBegin]

/-- An imposed trip leaves the monitors and the evaluation records. -/
@[simp] theorem parts_tripImposed (s : State) (x : Arm) (c : Cause) (t : Option Tile) (y : Arm) :
    ((s.tripImposed x c t).arm y).monitor = (s.arm y).monitor ∧
      ((s.tripImposed x c t).arm y).evaluation = (s.arm y).evaluation := by
  simp [State.tripImposed]

/-- The contact leaves the monitors and the evaluation records. -/
@[simp] theorem parts_contactTrip (s : State) (x y : Arm) :
    ((s.contactTrip x).arm y).monitor = (s.arm y).monitor ∧
      ((s.contactTrip x).arm y).evaluation = (s.arm y).evaluation := by
  simp only [State.contactTrip]
  split
  · simp
  · split <;> simp

/-- The scope leaves the monitors and the evaluation records. -/
@[simp] theorem parts_scopeTrip (s : State) (x : Arm) (c : Cause) (y : Arm) :
    ((s.scopeTrip x c).arm y).monitor = (s.arm y).monitor ∧
      ((s.scopeTrip x c).arm y).evaluation = (s.arm y).evaluation := by
  simp only [State.scopeTrip]
  split <;> simp

/-- A whole trip leaves the monitors and the evaluation records. -/
@[simp] theorem parts_tripOwn (s : State) (x : Arm) (c : Cause) (y : Arm) :
    ((s.tripOwn x c).arm y).monitor = (s.arm y).monitor ∧
      ((s.tripOwn x c).arm y).evaluation = (s.arm y).evaluation := by
  simp [State.tripOwn]

/-- The re-arming run leaves the monitors and the evaluation records. -/
@[simp] theorem parts_countClean (s : State) (x : Arm) (e : Evaluation) (y : Arm) :
    ((s.countClean x e).arm y).monitor = (s.arm y).monitor ∧
      ((s.countClean x e).arm y).evaluation = (s.arm y).evaluation := by
  simp only [State.countClean]
  split
  · split <;> simp
  · simp

/-- The Guard Controller's action leaves the monitors and the evaluation records. -/
@[simp] theorem parts_guardActs (s : State) (x : Arm) (e : Evaluation) (st : Start) (y : Arm) :
    ((s.guardActs x e st).arm y).monitor = (s.arm y).monitor ∧
      ((s.guardActs x e st).arm y).evaluation = (s.arm y).evaluation := by
  simp only [State.guardActs]
  split
  · simp
  · split <;> simp
  · split
    · simp
    · split <;> simp
  · split <;> simp

/-- An evaluation of arm `x` leaves every monitor, and the evaluation record of every other arm. -/
theorem parts_evaluateReport (s : State) (x : Arm) (r : Report) (m : Nat) (st : Start) (y : Arm) :
    ((s.evaluateReport x r m st).arm y).monitor = (s.arm y).monitor ∧
      (y ≠ x → ((s.evaluateReport x r m st).arm y).evaluation = (s.arm y).evaluation) := by
  simp only [State.evaluateReport]
  split
  · split <;> simp
  · rename_i e _
    constructor
    · split <;> simp
    · intro h
      split <;> simp [State.arm_setEvaluation_of_ne s (some e) h]

/-- Step 1 of a trip: the arm is TRIPPED with its permit off and a valid record. -/
@[simp] theorem guard_tripGuard (s : State) (x : Arm) (c : Cause) (own : Bool) (t : Option Tile) :
    ((s.tripGuard x c own t).arm x).guard =
      { (s.arm x).guard with
        state := .tripped, permit := false, clean := 0, trip := some (s.tripRecord x c own t) } := by
  simp [State.tripGuard]

/-- Step 1 of a trip leaves the other arm. -/
theorem arm_tripGuard_of_ne (s : State) {x y : Arm} (c : Cause) (own : Bool) (t : Option Tile) (h : y ≠ x) :
    (s.tripGuard x c own t).arm y = s.arm y := State.arm_setGuard_of_ne s _ h

/-- Step 3 of a trip leaves the other arm. -/
theorem arm_buildTripClaim_of_ne (s : State) {x y : Arm} (h : y ≠ x) : (s.buildTripClaim x).arm y = s.arm y := by
  simp [State.buildTripClaim, State.arm_setGuard_of_ne _ _ h]

/-- Steps 1 to 3 of a trip leave the other arm. -/
theorem arm_tripBegin_of_ne (s : State) {x y : Arm} (c : Cause) (own : Bool) (t : Option Tile) (h : y ≠ x) :
    (s.tripBegin x c own t).arm y = s.arm y := by
  simp [State.tripBegin, arm_buildTripClaim_of_ne _ h, arm_tripGuard_of_ne _ c own t h]

/-- An imposed trip leaves the other arm. -/
theorem arm_tripImposed_of_ne (s : State) {x y : Arm} (c : Cause) (t : Option Tile) (h : y ≠ x) :
    (s.tripImposed x c t).arm y = s.arm y := by
  simp [State.tripImposed, arm_tripBegin_of_ne _ c false t h]

/-- After steps 1 to 3 of a trip the arm is TRIPPED, its permit is off, its clean count 0 and its joined epoch kept, and its
record is valid with the cause given. -/
theorem guard_tripBegin (s : State) (x : Arm) (c : Cause) (own : Bool) (t : Option Tile) :
    let g := ((s.tripBegin x c own t).arm x).guard
    g.state = .tripped ∧ g.permit = false ∧ g.clean = 0 ∧ g.joined = (s.arm x).guard.joined ∧
      ∃ n b, g.trip = some { s.tripRecord x c own t with contested := b, tileCount := n } := by
  simp [State.tripBegin, State.buildTripClaim, Guard.mapTrip]

/-- What an imposed trip leaves the arm in. -/
theorem guard_tripImposed (s : State) (x : Arm) (c : Cause) (t : Option Tile) :
    let g := ((s.tripImposed x c t).arm x).guard
    g.state = .tripped ∧ g.permit = false ∧ g.clean = 0 ∧ g.joined = (s.arm x).guard.joined ∧
      ∃ n b, g.trip = some { s.tripRecord x c false t with contested := b, tileCount := n } := by
  have h := guard_tripBegin s x c false t
  simpa [State.tripImposed] using h

/-- A whole trip leaves the tripping arm as its steps 1 to 3 do. -/
theorem arm_tripOwn (s : State) (x : Arm) (c : Cause) : (s.tripOwn x c).arm x = (s.tripBegin x c true none).arm x := by
  have hne : x ≠ x.other := by cases x <;> simp [Arm.other]
  simp only [State.tripOwn, arm_grantScan, arm_announceTrip]
  have hs : ∀ u : State, (u.scopeTrip x c).arm x = u.arm x := by
    intro u
    simp only [State.scopeTrip]
    split
    · exact arm_tripImposed_of_ne u c none hne
    · rfl
  have hc : ∀ u : State, (u.contactTrip x).arm x = u.arm x := by
    intro u
    simp only [State.contactTrip]
    split
    · rfl
    · split
      · exact arm_tripImposed_of_ne u _ _ hne
      · rfl
  simp [hs, hc]

end Sys2Proof.Machine
end

