-- ==== Sys2Proof/Laws/Attention.lean ====
section
/-! SUPPORT. The attention sets: what raising and acknowledging a notice does, and that both keep the law of R169. -/

namespace Sys2Proof.Machine

open Sys2Proof

/-! ### Entering a notice -/

/-- A raised notice is in the set (R169). -/
@[simp] theorem mem_insertNotice_self (n : Notice) (l : List Notice) : n ∈ insertNotice n l := by
  induction l with
  | nil => simp [insertNotice]
  | cons m ms ih => unfold insertNotice; split_ifs <;> simp [ih]

/-- What is in a set after a raise is the notice raised, or was there before (R169). -/
theorem mem_of_mem_insertNotice {n m : Notice} {l : List Notice} (h : m ∈ insertNotice n l) : m = n ∨ m ∈ l := by
  induction l with
  | nil => simpa [insertNotice] using h
  | cons a as ih =>
    unfold insertNotice at h
    split_ifs at h
    · simpa using h
    · simp only [List.mem_cons] at h ⊢; tauto
    · simp only [List.mem_cons] at h ⊢
      rcases h with h | h
      · exact .inr (.inl h)
      · rcases ih h with h | h <;> tauto

/-- A notice of another kind stays in the set (R169). -/
theorem mem_insertNotice_of_ne {n m : Notice} {l : List Notice} (h : m ∈ l) (hc : m.code ≠ n.code) :
    m ∈ insertNotice n l := by
  induction l with
  | nil => cases h
  | cons a as ih =>
    unfold insertNotice
    split_ifs with h1 h2
    · exact List.mem_cons_of_mem _ h
    · rcases List.mem_cons.mp h with rfl | h
      · exact absurd h2.symm hc
      · exact List.mem_cons_of_mem _ h
    · rcases List.mem_cons.mp h with rfl | h
      · exact List.mem_cons_self
      · exact List.mem_cons_of_mem _ (ih h)

/-- A kind that stands in the set is not lost by a raise, whatever is raised (R169). -/
theorem code_mem_insertNotice {n : Notice} {l : List Notice} {c : Nat} (h : c ∈ l.map Notice.code) :
    c ∈ (insertNotice n l).map Notice.code := by
  obtain ⟨m, hm, rfl⟩ := List.mem_map.mp h
  by_cases hc : m.code = n.code
  · rw [hc]; exact List.mem_map_of_mem (mem_insertNotice_self n l)
  · exact List.mem_map_of_mem (mem_insertNotice_of_ne hm hc)

/-- A set with a notice raised is not empty. -/
@[simp] theorem insertNotice_ne_nil (n : Notice) (l : List Notice) : insertNotice n l ≠ [] :=
  List.ne_nil_of_mem (mem_insertNotice_self n l)

/-- A raise keeps the ascending code order with each kind at most once (R169). -/
theorem insertNotice_sorted {n : Notice} {l : List Notice} (h : (l.map Notice.code).Pairwise (· < ·)) :
    ((insertNotice n l).map Notice.code).Pairwise (· < ·) := by
  induction l with
  | nil => simp [insertNotice]
  | cons a as ih =>
    simp only [List.map_cons, List.pairwise_cons] at h
    unfold insertNotice
    split_ifs with h1 h2
    · simp only [List.map_cons, List.pairwise_cons]
      refine ⟨fun c hc => ?_, h⟩
      rcases List.mem_cons.mp hc with rfl | hc
      · exact h1
      · exact lt_trans h1 (h.1 c hc)
    · simp only [List.map_cons, List.pairwise_cons]
      exact ⟨fun c hc => h2 ▸ h.1 c hc, h.2⟩
    · simp only [List.map_cons, List.pairwise_cons]
      refine ⟨fun c hc => ?_, ih h.2⟩
      obtain ⟨m, hm, rfl⟩ := List.mem_map.mp hc
      rcases mem_of_mem_insertNotice hm with rfl | hm
      · omega
      · exact h.1 _ (List.mem_map_of_mem hm)

/-! ### The law of a port (R169) -/

/-- The law of one port's set and line. -/
abbrev Port.Law (q : Port) (p : Party) : Prop :=
  (q.attention.map Notice.code).Pairwise (· < ·) ∧ (∀ n ∈ q.attention, n.allowedAt p = true) ∧
  (q.line = true ↔ q.attention ≠ [])

/-- Raising a kind of the port keeps the law. -/
theorem Port.Law.raise {q : Port} {p : Party} (h : q.Law p) {n : Notice} (hn : n.allowedAt p = true) :
    (q.raise n).Law p := by
  refine ⟨insertNotice_sorted h.1, fun m hm => ?_, by simp [Port.raise]⟩
  rcases mem_of_mem_insertNotice hm with rfl | hm
  · exact hn
  · exact h.2.1 m hm

/-- Acknowledging any list of codes keeps the law. -/
theorem Port.Law.acknowledge {q : Port} {p : Party} (h : q.Law p) (codes : List Byte) :
    (q.acknowledge codes).Law p := by
  refine ⟨?_, fun n hn => h.2.1 n (List.mem_of_mem_filter hn), ?_⟩
  · exact h.1.sublist (List.filter_sublist.map _)
  · simp [Port.acknowledge]

/-- The law of a port is kept where its set and line are. -/
theorem Port.Law.of_eq {q r : Port} {p : Party} (h : q.Law p) (ha : r.attention = q.attention) (hl : r.line = q.line) :
    r.Law p := by
  unfold Port.Law; rw [ha, hl]; exact h

/-- A raise at one port keeps the law of every port (R169). -/
theorem State.raise_keeps_attention {s : State} (h : ∀ p, s.AttentionLaw p) {p : Party} {n : Notice}
    (hn : n.allowedAt p = true) (r : Party) : (s.raise p n).AttentionLaw r := by
  by_cases e : r = p
  · subst e
    have : (s.port r).Law r := h r
    simpa [State.AttentionLaw] using this.raise hn
  · simpa [State.AttentionLaw, State.port_raise_of_ne s n e] using h r

/-- The set of a port holds a notice of the kind raised, and it is the notice raised (R169). -/
theorem State.mem_attention_raise (s : State) (p : Party) (n : Notice) : n ∈ ((s.raise p n).port p).attention := by
  simp [Port.raise]

end Sys2Proof.Machine
end

