-- ==== Sys2Proof/Laws/Tiles.lean ====
section
/-! SUPPORT. The Tile Map: reading a record after each operation that writes records, and what the searches over the
storage in scan order find. -/

namespace Sys2Proof.Machine

open Sys2Proof

/-! ### The storage in scan order -/

/-- The position that stands at each place of the storage. -/
theorem allTiles_getElem (t : Tile) : allTiles[t.index]? = some t := by
  obtain ⟨c, r⟩ := t
  revert c r
  decide

/-- Every position is in the storage. -/
@[simp] theorem mem_allTiles (t : Tile) : t ∈ allTiles := List.mem_of_getElem? (allTiles_getElem t)

/-- A position stands at one place only. -/
theorem Tile.index_injective : Function.Injective Tile.index := by
  intro t u h
  simpa [allTiles_getElem] using congrArg (fun n => allTiles[n]?) h

/-- The places of the storage rise along it. -/
theorem allTiles_sorted : allTiles.Pairwise fun t u => t.index < u.index := by decide +kernel

/-- The storage holds no position twice. -/
theorem allTiles_nodup : allTiles.Nodup :=
  allTiles_sorted.imp fun h e => absurd h (by simp [e])

/-! ### Records after an update -/

/-- The record of a tile after every record is rewritten. -/
@[simp] theorem TileMap.get_update (f : Tile → TileRecord → TileRecord) (m : TileMap) (t : Tile) :
    (m.update f).get t = f t (m.get t) := by
  have h : allTiles[t.index]'(by rw [allTiles_length]; exact t.index_lt) = t := by
    have := allTiles_getElem t
    rwa [List.getElem?_eq_getElem (by rw [allTiles_length]; exact t.index_lt), Option.some.injEq] at this
  simp [TileMap.get, TileMap.update, h]

/-- The record of a tile read from a state whose Tile Map is replaced. -/
@[simp] theorem State.tile_withTiles (s : State) (m : TileMap) (t : Tile) : ({ s with tiles := m }).tile t = m.get t := rfl

/-- Two maps that read alike are equal. -/
theorem TileMap.ext_get {m n : TileMap} (h : ∀ t, m.get t = n.get t) : m = n := by
  obtain ⟨l, hl⟩ := m
  obtain ⟨k, hk⟩ := n
  have : l = k := by
    refine List.ext_getElem (by rw [hl, hk]) fun i h1 h2 => ?_
    rw [hl] at h1
    have := h ⟨⟨i % 16, by omega⟩, ⟨i / 16, by omega⟩⟩
    simp only [TileMap.get, Tile.index] at this
    have e : 16 * (i / 16) + i % 16 = i := by omega
    simpa only [e] using this
  subst this
  rfl

/-- Every record after reset (R5). -/
@[simp] theorem TileMap.get_initial (t : Tile) : TileMap.initial.get t = .initial := by
  simp only [TileMap.get, TileMap.initial, List.getElem_replicate]

/-- A hold is added exactly where the test holds (R67, R135). -/
@[simp] theorem State.tile_addHolds (s : State) (p : Party) (f : Tile → Bool) (t : Tile) :
    (s.addHolds p f).tile t = if f t then (s.tile t).addHold p else s.tile t := by
  simp [State.addHolds, State.tile]

/-- A hold ends exactly where the test holds (R69). -/
@[simp] theorem State.tile_dropHolds (s : State) (f : Tile → Bool) (t : Tile) :
    (s.dropHolds f).tile t = if f t then (s.tile t).dropHold else s.tile t := by
  simp [State.dropHolds, State.tile]

/-- A release neither changes the speed class of a tile nor gives it an owner it had not (R69). -/
theorem TileRecord.dropHold_spec (r : TileRecord) :
    r.dropHold.speedClass = r.speedClass ∧ r.dropHold.hold = r.hold - 1 ∧
    r.dropHold.owner = (if r.hold ≤ 1 then none else r.owner) ∧
    r.dropHold.service = (if r.hold ≤ 1 ∧ r.service = .closing then .blocked else r.service) := by
  unfold TileRecord.dropHold TileRecord.lastHold
  by_cases h : r.hold ≤ 1
  · by_cases hc : r.service = .closing <;> simp [h, hc]
  · simp [h]

/-- A claim that is not over a tile leaves its record alone when its slot is released (R69). -/
theorem State.tile_releaseSlot (s : State) (p : Party) (k : SlotNo) (t : Tile) :
    (s.releaseSlot p k).1.tile t =
      if (s.slot p k).heldRect.any (fun r => r.contains t) then (s.tile t).dropHold else s.tile t := by
  unfold State.releaseSlot
  cases h : (s.slot p k).heldRect <;> simp

/-- The tiles of a released trip claim lose one hold (R69). -/
theorem State.tile_releaseTrip (s : State) (x : Arm) (t : Tile) :
    (s.releaseTrip x).1.tile t = if s.inTrip x t then (s.tile t).dropHold else s.tile t := by
  simp [State.releaseTrip]

/-- A trip claim adds a hold to the tiles it takes and touches no other (R135). -/
theorem State.tile_buildTripClaim (s : State) (x : Arm) (t : Tile) :
    (s.buildTripClaim x).tile t =
      if (s.touches x t && (s.tile t).takenBy x) then (s.tile t).addHold x.party else s.tile t := by
  simp [State.buildTripClaim]

/-- STOP takes every owner and hold away (R18). -/
theorem State.tile_clearClaims (s : State) (t : Tile) : (s.clearClaims).tile t = (s.tile t).stopped := by
  unfold State.clearClaims
  simp only
  split <;> simp [State.tile, State.raise, State.setPort]

/-! ### Searches in scan order -/

/-- What a search finds satisfies the test. -/
theorem firstTile_some {f : Tile → Bool} {t : Tile} (h : firstTile f = some t) : f t = true := List.find?_some h

/-- A search finds nothing exactly where no position satisfies the test. -/
theorem firstTile_eq_none {f : Tile → Bool} : firstTile f = none ↔ ∀ t, f t = false := by
  simp [firstTile]

/-- A search finds a position exactly where one satisfies the test. -/
theorem firstTile_isSome {f : Tile → Bool} : (firstTile f).isSome = true ↔ ∃ t, f t = true := by
  simp [firstTile]

/-- No position before the one found in scan order satisfies the test. -/
theorem firstTile_first {f : Tile → Bool} {t u : Tile} (h : firstTile f = some t) (hu : f u = true) :
    t.index ≤ u.index := by
  unfold firstTile at h
  obtain ⟨-, as, bs, heq, hno⟩ := List.find?_eq_some_iff_append.mp h
  have hm := mem_allTiles u
  have hs := allTiles_sorted
  rw [heq] at hm hs
  rcases List.mem_append.mp hm with ha | hb
  · exact absurd hu (by simpa using hno u ha)
  · rcases List.mem_cons.mp hb with rfl | hb
    · exact le_refl _
    · exact le_of_lt (List.rel_of_pairwise_cons (List.pairwise_append.mp hs).2.1 hb)

/-- A count is 0 exactly where no position satisfies the test. -/
theorem countTiles_eq_zero {f : Tile → Bool} : countTiles f = 0 ↔ ∀ t, f t = false := by
  simp [countTiles, List.countP_eq_zero]

/-- A count is at most the 128 records of R1. -/
theorem countTiles_le (f : Tile → Bool) : countTiles f ≤ 128 := by
  unfold countTiles
  exact le_trans List.countP_le_length (le_of_eq allTiles_length)

/-- A count splits over a second test. -/
theorem countTiles_split (f g : Tile → Bool) :
    countTiles f = countTiles (fun t => f t && g t) + countTiles (fun t => f t && !g t) := by
  unfold countTiles
  induction allTiles with
  | nil => rfl
  | cons t ts ih =>
    simp only [List.countP_cons, ih]
    cases f t <;> cases g t <;> simp <;> omega

end Sys2Proof.Machine
end

