-- ==== Sys2Proof/Laws/Claims.lean ====
section
/-! SUPPORT. The claim table and the queue: what each search over them finds, and what each shared operation does to a
slot and to the queue. -/

namespace Sys2Proof.Machine

open Sys2Proof

/-- Every ordinary slot is in the list of slots. -/
@[simp] theorem mem_slotNos (k : SlotNo) : k ∈ slotNos := by revert k; decide

/-- Every party is in the list of parties. -/
@[simp] theorem mem_parties (p : Party) : p ∈ parties := by cases p <;> simp [parties]

/-! ### Waiting claims -/

/-- A waiting claim is a PENDING slot with its fields (R60). -/
theorem State.waiter_eq_some {s : State} {n : ClaimName} {w : Waiter} :
    s.waiter n = some w ↔ w.name = n ∧ s.slot n.party n.slot = .pending w.rect w.wait w.link := by
  obtain ⟨wn, wr, ww, wl⟩ := w
  unfold State.waiter
  split <;> rename_i h <;> simp [h]
  · tauto
  · intro _ hs; exact absurd hs (h _ _ _)

/-- The claims of the queue are the PENDING slots that it names (R80). -/
theorem State.mem_waiters {s : State} {w : Waiter} :
    w ∈ s.waiters ↔ w.name ∈ s.queue ∧ s.slot w.name.party w.name.slot = .pending w.rect w.wait w.link := by
  simp only [State.waiters, List.mem_filterMap, State.waiter_eq_some]
  constructor
  · rintro ⟨n, hn, rfl, hs⟩; exact ⟨hn, hs⟩
  · rintro ⟨hn, hs⟩; exact ⟨_, hn, rfl, hs⟩

/-- The PENDING claim of a party is a claim of the queue with that party's name (R64). -/
theorem State.pendingOf_some {s : State} {p : Party} {w : Waiter} (h : s.pendingOf p = some w) :
    w ∈ s.waiters ∧ w.name.party = p := by
  unfold State.pendingOf at h
  exact ⟨List.mem_of_find?_eq_some h, by simpa using List.find?_some h⟩

/-- A party has no PENDING claim exactly where the queue holds none of its (R64). -/
theorem State.pendingOf_none {s : State} {p : Party} :
    s.pendingOf p = none ↔ ∀ w ∈ s.waiters, w.name.party ≠ p := by
  simp [State.pendingOf]

/-- The claims of a state depend on its queue and its claim table alone. -/
theorem State.waiters_congr {s t : State} (hq : t.queue = s.queue) (hc : t.claims = s.claims) :
    t.waiters = s.waiters := by
  have h : t.waiter = s.waiter := by
    funext n; simp [State.waiter, State.slot, hc]
  simp [State.waiters, hq, h]

/-- An arrival number given now is above that of every claim of the queue (R81). -/
theorem State.nextArrival_gt {s : State} {w : Waiter} (h : w ∈ s.waiters) : w.wait.arrival < s.nextArrival := by
  have key : ∀ (l : List Nat) (n : Nat), n ∈ l → n ≤ l.foldr max 0 := by
    intro l
    induction l with
    | nil => simp
    | cons a as ih =>
      intro n hn
      rcases List.mem_cons.mp hn with rfl | hn
      · exact le_max_left _ _
      · exact le_trans (ih n hn) (le_max_right _ _)
  exact Nat.lt_succ_of_le (key _ _ (List.mem_map_of_mem h))

/-! ### Searches over the slots -/

/-- The slot chosen for a new claim is EMPTY, and it is the lowest such slot (R64). -/
theorem State.firstEmpty_some {s : State} {p : Party} {k : SlotNo} (h : s.firstEmpty p = some k) :
    s.slot p k = .empty ∧ ∀ j < k, s.slot p j ≠ .empty := by
  have hk : (s.slot p k).state = .empty := by simpa using List.find?_some h
  refine ⟨by revert hk; cases s.slot p k <;> simp [Claim.state], fun j hj he => ?_⟩
  obtain ⟨-, as, bs, heq, hno⟩ := List.find?_eq_some_iff_append.mp h
  have hm : j ∈ as ++ k :: bs := heq ▸ mem_slotNos j
  have hs : (as ++ k :: bs).Pairwise (· < ·) := heq ▸ (by decide : slotNos.Pairwise (· < ·))
  rcases List.mem_append.mp hm with ha | hb
  · simpa [he, Claim.state] using hno j ha
  · rcases List.mem_cons.mp hb with rfl | hb
    · exact lt_irrefl _ hj
    · exact absurd (List.rel_of_pairwise_cons (List.pairwise_append.mp hs).2.1 hb) (not_lt.mpr (le_of_lt hj))

/-- No slot is EMPTY exactly where the search for one fails (R64). -/
theorem State.firstEmpty_none {s : State} {p : Party} :
    s.firstEmpty p = none ↔ ∀ k, s.slot p k ≠ .empty := by
  simp only [State.firstEmpty, List.find?_eq_none, mem_slotNos, true_implies]
  refine forall_congr' fun k => ?_
  cases s.slot p k <;> simp [Claim.state]

/-! ### What the shared operations do to a slot -/

/-- A claim that is removed leaves its slot EMPTY, and no other slot changes (R72). -/
theorem State.slot_removePending (s : State) (n : ClaimName) (p : Party) (k : SlotNo) :
    (s.removePending n).slot p k = if p = n.party ∧ k = n.slot then .empty else s.slot p k := by
  unfold State.removePending
  rw [State.slot_setSlot_eq]
  split <;> simp

/-- A claim that is removed leaves the queue (R72). -/
@[simp] theorem State.queue_removePending (s : State) (n : ClaimName) :
    (s.removePending n).queue = s.queue.filter (· ≠ n) := by
  simp [State.removePending, State.dequeue]

/-- A claim that is enqueued stands PENDING in its slot at age 0, and no other slot changes (R80, R91). -/
theorem State.slot_enqueue (s : State) (p q : Party) (k j : SlotNo) (r : Rect) (l : Option SlotNo) :
    (s.enqueue p k r l).slot q j =
      if q = p ∧ j = k then .pending r ⟨s.nextArrival, 0, false⟩ l else s.slot q j := by
  have h : (s.enqueue p k r l).slot q j = (s.setSlot p k (.pending r ⟨s.nextArrival, 0, false⟩ l)).slot q j := rfl
  rw [h, State.slot_setSlot_eq]

/-- A claim that is enqueued stands at the tail (R80). -/
@[simp] theorem State.queue_enqueue (s : State) (p : Party) (k : SlotNo) (r : Rect) (l : Option SlotNo) :
    (s.enqueue p k r l).queue = s.queue ++ [⟨p, k⟩] := rfl

/-- A release empties the slot and clears the links to it, in the slots of its party alone (R69). -/
theorem State.slot_releaseSlot (s : State) (p q : Party) (k j : SlotNo) (h : (s.slot p k).heldRect.isSome = true) :
    (s.releaseSlot p k).1.slot q j =
      if q = p then (if j = k then .empty else (s.slot p j).unlink k) else s.slot q j := by
  unfold State.releaseSlot
  obtain ⟨r, hr⟩ := Option.isSome_iff_exists.mp h
  simp only [hr, State.slot_setSlot_eq]
  by_cases hq : q = p
  · subst hq; by_cases hj : j = k <;> simp [hj]
  · simp [hq, State.slot_mapSlots_of_ne _ _ _ hq]

/-- A slot that holds no tiles has nothing to release. -/
theorem State.releaseSlot_none {s : State} {p : Party} {k : SlotNo} (h : (s.slot p k).heldRect = none) :
    s.releaseSlot p k = (s, 0) := by
  simp [State.releaseSlot, h]

/-- A claim keeps its state when a link to another claim is cleared, but for a DRAINING source whose target it was,
which returns to HELD (R69). -/
theorem Claim.unlink_state (k : SlotNo) (c : Claim) :
    (c.unlink k).state = if c.link = some k ∧ c.state = .draining then .held else c.state := by
  match c with
  | .empty => rfl
  | .pending r w none => rfl
  | .pending r w (some j) => simp [Claim.unlink, Claim.state]
  | .held r none => rfl
  | .held r (some j) => simp [Claim.unlink, Claim.state]
  | .draining r j => by_cases h : j = k <;> simp [Claim.unlink, Claim.state, Claim.link, h]

/-- Clearing a link leaves the tiles that a claim holds as they were (R69). -/
@[simp] theorem Claim.unlink_heldRect (k : SlotNo) (c : Claim) : (c.unlink k).heldRect = c.heldRect := by
  match c with
  | .empty => rfl
  | .pending r w none => rfl
  | .pending r w (some j) => rfl
  | .held r none => rfl
  | .held r (some j) => rfl
  | .draining r j => by_cases h : j = k <;> simp [Claim.unlink, Claim.heldRect, h]

/-- Time changes the wait age of a PENDING claim alone (R91). -/
theorem State.slot_elapse (s : State) (n : Nat) (p : Party) (k : SlotNo) :
    (s.elapse n).slot p k = (s.slot p k).elapse n := by
  cases p <;> simp [State.slot, State.elapse, ClaimTable.slots]

/-! ### The grant scan -/

/-- An entry of a walk is granted where it is grantable as it is reached, and left where it is not (R88). -/
theorem scanEntry_cases (acc : State × Bool) (n : ClaimName) :
    scanEntry acc n = acc ∨
    ∃ w, acc.1.waiter n = some w ∧ acc.1.grantable n.party w.rect w.wait.arrival = true ∧
      scanEntry acc n =
        ((acc.1.grant n w.rect w.link).1.raise n.party (.granted n.slot),
          acc.2 || (acc.1.grant n w.rect w.link).2.isSome) := by
  unfold scanEntry
  split
  · exact .inl rfl
  · rename_i w hw
    split_ifs with h
    · exact .inr ⟨w, hw, h, rfl⟩
    · exact .inl rfl

/-- A grant scan of an empty queue changes nothing. -/
theorem State.grantScan_nil {s : State} (h : s.queue = []) : s.grantScan = s := by
  simp [State.grantScan, scanPasses, State.scanPass, h]

/-! ### The drain test (R110, R111) -/

/-- A party without a DRAINING claim has none to drain. -/
theorem State.drainOf_none {s : State} {p : Party} (h : ∀ k, (s.slot p k).state ≠ .draining) : s.drainOf p = none := by
  simp only [State.drainOf, List.findSome?_eq_none_iff]
  intro k _
  have := h k
  cases hk : s.slot p k <;> simp_all [Claim.state]

/-- The DRAINING claim of a party is that of its lowest DRAINING slot. -/
theorem State.drainOf_some {s : State} {p : Party} {k t : SlotNo} {r : Rect} (h : s.slot p k = .draining r t)
    (hb : ∀ j < k, (s.slot p j).state ≠ .draining) : s.drainOf p = some (k, r, t) := by
  have split : ∀ k : SlotNo, slotNos = slotNos.take k.val ++ k :: slotNos.drop (k.val + 1) := by decide
  have before : ∀ k : SlotNo, ∀ j ∈ slotNos.take k.val, j < k := by decide
  refine List.findSome?_eq_some_iff.2 ⟨_, k, _, split k, by simp [h], fun j hj => ?_⟩
  have := hb j (before k j hj)
  cases hs : s.slot p j with
  | draining q l => simp [hs, Claim.state] at this
  | _ => rfl

/-- The drain test passes where no tile of the source outside the target is touched (R110). -/
theorem State.drainPasses_iff {s : State} {x : Arm} {r q : Rect} :
    s.drainPasses x r q = true ↔ ¬∃ z, r.contains z = true ∧ q.contains z = false ∧ s.touches x z = true := by
  simp only [State.drainPasses, List.all_eq_true, mem_allTiles, forall_const]
  constructor
  · rintro h ⟨z, h1, h2, h3⟩
    simpa [h1, h2, h3] using h z
  · intro h z
    by_contra hc
    exact h ⟨z, by simpa [and_assoc] using hc⟩

/-- All that the drain at an evaluation can do: nothing, or the release of a DRAINING source whose test passes, with
SHIFT_DONE of its target and a grant scan (R110, R111). -/
theorem State.drain_cases (s : State) (x : Arm) :
    s.drain x = s ∨
    ∃ k r t q, s.drainOf x.party = some (k, r, t) ∧ (s.slot x.party t).heldRect = some q ∧ s.drainPasses x r q = true ∧
      s.drain x = ((s.releaseSlot x.party k).1.raise x.party (.shiftDone t)).grantScan := by
  unfold State.drain
  split
  · exact .inl rfl
  · rename_i k r t hd
    split
    · exact .inl rfl
    · rename_i q hq
      split
      · exact .inr ⟨k, r, t, q, hd, hq, ‹_›, rfl⟩
      · exact .inl rfl

end Sys2Proof.Machine
end

