-- ==== Sys2Proof/Laws/Decode.lean ====
section
/-! SUPPORT. The bytes of a frame: the check byte, the two-byte quantities, and the report section. -/

namespace Sys2Proof

/-! ### The check byte (R165, R166) -/

/-- The XOR of a joined list is the XOR of the parts. -/
theorem xorAll_append (l m : List Byte) : xorAll (l ++ m) = xorAll l ^^^ xorAll m := by
  induction l with
  | nil => simp [xorAll]
  | cons b bs ih => simp [xorAll, ih, BitVec.xor_assoc]

/-- A list with its XOR appended has XOR 0 (R166). -/
@[simp] theorem xorAll_checked (l : List Byte) : xorAll (l ++ [xorAll l]) = 0 := by
  simp [xorAll_append, xorAll]

/-- Replacing a byte by a different one changes the XOR. -/
theorem xorAll_set_ne {l : List Byte} {i : Nat} (hi : i < l.length) {b : Byte} (hb : b ≠ l[i]) :
    xorAll (l.set i b) ≠ xorAll l := by
  induction l generalizing i with
  | nil => simp at hi
  | cons a as ih =>
    cases i with
    | zero =>
      simp only [List.set_cons_zero, xorAll]
      intro h
      exact hb (by simpa using congrArg (· ^^^ xorAll as) h)
    | succ j =>
      simp only [List.set_cons_succ, xorAll]
      intro h
      exact ih (by simpa using hi) (by simpa using hb) (by simpa using congrArg (a ^^^ ·) h)

/-! ### Two-byte quantities (R166) -/

/-- The bits of two bytes put together. -/
theorem getLsbD_word16 (h l : Byte) (i : Nat) :
    (word16 h l).getLsbD i = if i < 8 then l.getLsbD i else h.getLsbD (i - 8) :=
  BitVec.getLsbD_append (x := h) (y := l) (i := i)

/-- A quantity is read back from its two bytes. -/
@[simp] theorem word16_hi_lo (w : Word16) : word16 (hiByte w) (loByte w) = w := by
  refine BitVec.eq_of_getLsbD_eq fun i hi => ?_
  rw [getLsbD_word16]
  split_ifs with h
  · simp [loByte, h]
  · have h1 : i - 8 < 8 := by omega
    have h2 : 8 + (i - 8) = i := by omega
    simp [hiByte, h1, h2]

/-- The high byte of two bytes. -/
@[simp] theorem hiByte_word16 (h l : Byte) : hiByte (word16 h l) = h := by
  refine BitVec.eq_of_getLsbD_eq fun i hi => ?_
  simp [hiByte, getLsbD_word16, hi]

/-- The low byte of two bytes. -/
@[simp] theorem loByte_word16 (h l : Byte) : loByte (word16 h l) = l := by
  refine BitVec.eq_of_getLsbD_eq fun i hi => ?_
  simp [loByte, getLsbD_word16, hi]

/-! ### The report section (R166) -/

/-- A probe record takes nine bytes. -/
@[simp] theorem Probe.bytes_length (q : Probe) : q.bytes.length = 9 := rfl

/-- Probe records are read back from their bytes. -/
theorem parseProbes_bytes (l : List Probe) (more : List Byte) :
    parseProbes l.length (l.flatMap Probe.bytes ++ more) = l := by
  induction l with
  | nil => cases more <;> rfl
  | cons q qs ih =>
    simp only [List.length_cons, List.flatMap_cons, Probe.bytes, List.cons_append, List.nil_append, parseProbes,
      word16_hi_lo]
    exact congrArg _ ih

/-- A report section takes one byte and nine for each record. -/
@[simp] theorem Report.bytes_length (r : Report) : r.bytes.length = 1 + 9 * r.probes.length := by
  have h : ∀ l : List Probe, (l.flatMap Probe.bytes).length = 9 * l.length := by
    intro l
    induction l with
    | nil => rfl
    | cons q qs ih => simp only [List.flatMap_cons, List.length_append, Probe.bytes_length, ih, List.length_cons]; omega
  simp [Report.bytes, h]; omega

/-- The body of a request is its report section and its command section. -/
theorem Request.bodyBytes_length (q : Request) : q.bodyBytes.length = reportLength q.rep + q.body.length := by
  unfold Request.bodyBytes reportLength
  cases q.rep <;> simp

/-- A request frame holds four bytes beside its body, and their XOR is 0 (R166). -/
theorem Request.frame_spec (q : Request) :
    q.frame.bytes.length = q.bodyBytes.length + 4 ∧ xorAll q.frame.bytes = 0 ∧ q.frame.extra = [] := by
  refine ⟨by simp [Request.frame], ?_, rfl⟩
  simpa [Request.frame] using
    xorAll_checked (q.kind :: q.tagByte :: BitVec.ofNat 8 q.bodyBytes.length :: q.bodyBytes)

end Sys2Proof
end

