-- ==== Sys2Proof/Laws/Envelope.lean ====
section
/-! SUPPORT. The arithmetic of the Envelope Unit: ceiling division, the interval of an axis and the tile cover. -/

namespace Sys2Proof.Machine

open Sys2Proof

/-- A ceiling quotient is the least number whose multiple reaches the dividend (R25). -/
theorem ceilDiv_le_iff {n d k : Nat} (hd : 0 < d) : ceilDiv n d ≤ k ↔ n ≤ k * d := by
  unfold ceilDiv
  rw [← Nat.lt_succ_iff, Nat.div_lt_iff_lt_mul hd, Nat.succ_mul]
  omega

/-- The dividend lies within one divisor below the multiple of its ceiling quotient (R25). -/
theorem ceilDiv_spec (n : Nat) {d : Nat} (hd : 0 < d) : n ≤ ceilDiv n d * d ∧ ceilDiv n d * d < n + d := by
  refine ⟨(ceilDiv_le_iff hd).mp le_rfl, ?_⟩
  have := Nat.div_mul_le_self (n + d - 1) d
  unfold ceilDiv
  omega

/-- Ceiling division of 0 (R25, R26). -/
@[simp] theorem ceilDiv_zero (d : Nat) : ceilDiv 0 d = 0 := by
  unfold ceilDiv
  rcases Nat.eq_zero_or_pos d with rfl | h
  · simp
  · exact Nat.div_eq_of_lt (by omega)

/-- A probe at rest on an axis travels no distance along it (R25, R26). -/
@[simp] theorem ArmParams.reach_zero (a : ArmParams) (m : Nat) : a.reach 0 m = 0 := by
  simp [ArmParams.reach, stopDistance, inflation]

/-- The interval of an axis reaches past the probe by the enlargement on both sides, and by the stop distance and the
inflation on the side of motion (R28). -/
theorem axisInterval_spec (c v : Int) (f reach : Nat) :
    axisInterval c v f reach = (c - f - (if v < 0 then (reach : Int) else 0), c + f + (if 0 < v then (reach : Int) else 0)) := by
  unfold axisInterval
  split_ifs <;> first | omega | simp

/-- The interval of an axis is never empty (R28). -/
theorem axisInterval_le (c v : Int) (f reach : Nat) : (axisInterval c v f reach).1 ≤ (axisInterval c v f reach).2 := by
  rw [axisInterval_spec]
  split_ifs <;> simp <;> omega

/-- A row index is clamped into the grid (R30). -/
theorem Params.clampRow_lt {ps : Params} (h : 0 < ps.nrow) (i : Int) : ps.clampRow i < ps.nrow := by
  unfold Params.clampRow
  omega

/-- A covered tile lies in the column range and the row range (R31). -/
theorem Envelope.covers_iff (e : Envelope) (t : Tile) :
    e.covers t = true ↔
      ∃ lo hi, e.cols = some (lo, hi) ∧ (lo ≤ t.col.val ∧ t.col.val ≤ hi) ∧ e.rows.1 ≤ t.row.val ∧ t.row.val ≤ e.rows.2 := by
  unfold Envelope.covers
  cases h : e.cols with
  | none => simp
  | some c => obtain ⟨lo, hi⟩ := c; simp [and_assoc]

/-- The cover of an evaluation is the union of the covers of its probes (R31). -/
theorem Evaluation.covers_iff (e : Evaluation) (t : Tile) :
    e.covers t = true ↔ ∃ v ∈ e.envelopes, v.covers t = true := by
  obtain ⟨_, _, _, _, _, _, _, tool, elbow⟩ := e
  cases ht : tool.envelope <;> cases elbow with
  | none => simp [Evaluation.covers, Evaluation.envelopes, ProbeEntry.covers, ht]
  | some b => cases hb : b.envelope <;> simp [Evaluation.covers, Evaluation.envelopes, ProbeEntry.covers, ht, hb]

end Sys2Proof.Machine
end

