-- ==== Sys2Proof/Laws/Exec.lean ====
section
/-! SUPPORT. One lemma for each shared path of `exec` and `step`: the processing of a request, and the step itself. -/

namespace Sys2Proof.Machine

open Sys2Proof

/-- The processing of a request that its port has taken (R163). -/
theorem serve_taken {c : Instr} {q : Request} (command : State → State × Answer) {s : State} (hq : c.request = some q)
    (h : s.taken q.port c = true) :
    serve c command s =
      .next ((command (s.afterReport q.port q.rep)).1.placeReply q.port q.tag q.kind
        (command (s.afterReport q.port q.rep)).2) := by
  simp [serve, hq, h]

/-- A request that its port has not taken changes nothing (log 5). -/
theorem serve_not_taken {c : Instr} {q : Request} (command : State → State × Answer) {s : State}
    (hq : c.request = some q) (h : s.taken q.port c = false) : serve c command s = .next s := by
  simp [serve, hq, h]

/-- The processing of a request answers a next state: the state as it was, or the state its command leaves with a reply
placed in it. -/
theorem serve_cases (c : Instr) (command : State → State × Answer) (s : State) :
    serve c command s = .next s ∨
    ∃ q a t, c.request = some q ∧ s.taken q.port c = true ∧ command (s.afterReport q.port q.rep) = (t, a) ∧
      serve c command s = .next (t.placeReply q.port q.tag q.kind a) := by
  cases hq : c.request with
  | none => exact .inl (by simp [serve, hq])
  | some q =>
    by_cases h : s.taken q.port c = true
    · exact .inr ⟨q, _, _, rfl, h, rfl, serve_taken command hq h⟩
    · exact .inl (serve_not_taken command hq (by simpa using h))

/-- A port that has taken a request holds its frame (R163). -/
theorem State.taken_iff (s : State) (p : Party) (c : Instr) :
    s.taken p c = true ↔ ∃ f, (s.port p).processing = some f ∧ decodeFrame p f = .accepted c := by
  unfold State.taken State.inProcessing
  cases (s.port p).processing with
  | none => simp
  | some f => cases h : decodeFrame p f <;> simp [h]

/-- A part that is held in reset has taken no request (R156). -/
theorem State.not_taken_of_idle {s : State} {p : Party} (h : (s.port p).processing = none) (c : Instr) :
    s.taken p c = false := by simp [State.taken, State.inProcessing, h]

/-- Without a report section a request leaves the Report Monitors as they were (R43). -/
@[simp] theorem State.takeReport_none (s : State) (p : Party) : s.takeReport p none = s := by
  cases p <;> rfl

/-- The Cell Port has no Report Monitor (R43). -/
@[simp] theorem State.takeReport_C (s : State) (rep : Option Report) : s.takeReport .C rep = s := rfl

/-- A report at an Arm Port reaches the monitor of that arm (R43). -/
@[simp] theorem State.takeReport_arm (s : State) (x : Arm) (r : Report) :
    s.takeReport x.party (some r) = s.armReport x r := by
  cases x <;> rfl

/-- The command section of a request without a report acts on the state as it stands (R43). -/
@[simp] theorem State.afterReport_none (s : State) (p : Party) : s.afterReport p none = s := by
  simp [State.afterReport]

/-- So does that of a request of the Cell Port. -/
@[simp] theorem State.afterReport_C (s : State) (rep : Option Report) : s.afterReport .C rep = s := by
  simp [State.afterReport]

/-- Before its report section is taken, a request's command section waits for it (R163). -/
theorem State.afterReport_of_not {s : State} {p : Party} (rep : Option Report) (h : (s.port p).reported = false) :
    s.afterReport p rep = s.takeReport p rep := by simp [State.afterReport, h]

/-- Once its report section is taken, a request's command section acts on the state as it stands (R163). -/
theorem State.afterReport_of_reported {s : State} {p : Party} (rep : Option Report) (h : (s.port p).reported = true) :
    s.afterReport p rep = s := by simp [State.afterReport, h]

/-- A report section taken by an idle step writes the report's effect and the stage of the port (R163). -/
@[simp] theorem State.takeSection_parts (s : State) (x : Arm) (rep : Report) :
    (∀ y, (s.takeSection x rep).arm y = (s.armReport x rep).arm y) ∧
    (∀ p k, (s.takeSection x rep).slot p k = (s.armReport x rep).slot p k) ∧
    (∀ y, (s.takeSection x rep).tripTiles y = (s.armReport x rep).tripTiles y) ∧
    (∀ t, (s.takeSection x rep).tile t = (s.armReport x rep).tile t) ∧
    (s.takeSection x rep).queue = (s.armReport x rep).queue ∧
    (s.takeSection x rep).port x.party = { (s.armReport x rep).port x.party with reported := true } := by
  cases x <;> exact ⟨fun y => by cases y <;> rfl, fun _ _ => rfl, fun _ => rfl, fun _ => rfl, rfl, rfl⟩

/-- The outcomes of a report (R44). -/
theorem State.armReport_cases (s : State) (x : Arm) (r : Report) :
    s.armReport x r = s ∨ (∃ why, s.armReport x r = s.raise x.party (.reportRefused why r.count)) ∨
    s.armReport x r = s.freshReport x r := by
  unfold State.armReport
  split
  · exact .inl rfl
  · exact .inr (.inl ⟨_, rfl⟩)
  · exact .inl rfl
  · exact .inr (.inr rfl)

/-- What an idle step can do (log 6): take the report section of arm A's port, else of arm B's, else a due timer event,
else let time pass. -/
theorem idle_cases (s : State) :
    (∃ rep, s.reportDue .A = some rep ∧ idle s = .next (s.takeSection .A rep)) ∨
    (∃ rep, s.reportDue .A = none ∧ s.reportDue .B = some rep ∧ idle s = .next (s.takeSection .B rep)) ∨
    ((∀ x, s.reportDue x = none) ∧
      ((∃ c, s.dueEvent = some c ∧ idle s = exec c s) ∨
        (s.dueEvent = none ∧ idle s = .next (s.elapse Config.tick)))) := by
  cases hA : s.reportDue .A with
  | some rep => exact .inl ⟨rep, rfl, by simp [idle, hA]⟩
  | none =>
    cases hB : s.reportDue .B with
    | some rep => exact .inr (.inl ⟨rep, rfl, rfl, by simp [idle, hA, hB]⟩)
    | none =>
      refine .inr (.inr ⟨fun x => by cases x <;> assumption, ?_⟩)
      cases hE : s.dueEvent with
      | some c => exact .inl ⟨c, rfl, by simp [idle, hA, hB, hE]⟩
      | none => exact .inr ⟨rfl, by simp [idle, hA, hB, hE]⟩

/-- A step with none waiting idles. -/
theorem step_idle {s : State} (h : s.pending = []) : step s = idle s := by simp [step, h]

end Sys2Proof.Machine
end

