-- ==== Sys2Proof/Laws/Lawful.lean ====
section
/-! SUPPORT. The laws of a given state decided: quantifiers over parties, arms and tiles as finite conjunctions, and one
check whose success gives `State.Lawful`. -/

namespace Sys2Proof.Machine

open Sys2Proof

/-! ### Finite quantifiers -/

/-- What holds of the three parties holds of every party. -/
theorem Party.forall_iff {P : Party → Prop} : (∀ p, P p) ↔ P .A ∧ P .B ∧ P .C :=
  ⟨fun h => ⟨h _, h _, h _⟩, fun h p => by cases p <;> simp [h]⟩

/-- Some party is one of the three. -/
theorem Party.exists_iff {P : Party → Prop} : (∃ p, P p) ↔ P .A ∨ P .B ∨ P .C :=
  ⟨fun ⟨p, h⟩ => by cases p <;> simp [h], fun h => by rcases h with h | h | h <;> exact ⟨_, h⟩⟩

/-- What holds of both arms holds of every arm. -/
theorem Arm.forall_iff {P : Arm → Prop} : (∀ x, P x) ↔ P .A ∧ P .B :=
  ⟨fun h => ⟨h _, h _⟩, fun h x => by cases x <;> simp [h]⟩

/-- Some arm is one of the two. -/
theorem Arm.exists_iff {P : Arm → Prop} : (∃ x, P x) ↔ P .A ∨ P .B :=
  ⟨fun ⟨x, h⟩ => by cases x <;> simp [h], fun h => by rcases h with h | h <;> exact ⟨_, h⟩⟩

/-- What holds in every column and row holds of every tile. -/
theorem Tile.forall_iff {P : Tile → Prop} : (∀ t, P t) ↔ ∀ c r, P ⟨c, r⟩ :=
  ⟨fun h _ _ => h _, fun h t => h t.col t.row⟩

/-- Some tile stands in some column and row. -/
theorem Tile.exists_iff {P : Tile → Prop} : (∃ t, P t) ↔ ∃ c r, P ⟨c, r⟩ :=
  ⟨fun ⟨t, h⟩ => ⟨t.col, t.row, h⟩, fun ⟨_, _, h⟩ => ⟨_, h⟩⟩

/-! ### The report section of a request -/

/-- The report section that an idle step finds due is that of the request in processing (R43, R163). -/
theorem State.sectionDue_iff (s : State) (x : Arm) (rep : Report) :
    s.SectionDue x rep ↔ s.reportDue x = some rep := by
  unfold State.SectionDue State.reportDue State.carriedReport State.inProcessing
  cases (s.port x.party).reported with
  | true => simp
  | false =>
    cases (s.port x.party).processing with
    | none => simp
    | some f =>
      cases h : decodeFrame x.party f with
      | refused r => simp [h]
      | accepted c => cases hq : c.request <;> simp [h, hq]

/-! ### The check -/

/-- The links of a slot, checked (R103, R107, R109). -/
def State.linkCheck (s : State) (p : Party) (k : SlotNo) : Bool :=
  match s.slot p k with
  | .empty => true
  | .pending _ _ none => true
  | .pending _ _ (some j) =>
    (s.slot p j).state == .held && (s.slot p j).link == none && slotNos.all fun i => (s.slot p i).state != .draining
  | .held _ none => true
  | .held _ (some j) => (s.slot p j).state == .draining && (s.slot p j).link == some k
  | .draining _ t => p != .C && (s.slot p t).state == .held && (s.slot p t).link == some k

/-- The check of a slot's links is their law. -/
theorem State.linkLaw_of_check {s : State} {p : Party} {k : SlotNo} (h : s.linkCheck p k = true) : s.LinkLaw p k := by
  unfold State.linkCheck at h
  unfold State.LinkLaw
  split at h <;> simp_all [slotNos, Fin.forall_fin_succ]

/-- The laws of a slot, checked. -/
def State.slotCheck (s : State) (p : Party) (k : SlotNo) : Bool :=
  ((s.slot p k).rect.all fun r => decide (s.params.RectLaw r)) && s.linkCheck p k &&
    ((s.slot p k).state == .empty || (s.mode != .setup && p.arm.all fun x => s.guardState x != .offline))

/-- The check of a slot is its law. -/
theorem State.slotLaw_of_check {s : State} {p : Party} {k : SlotNo} (h : s.slotCheck p k = true) : s.SlotLaw p k := by
  simp only [State.slotCheck, Bool.and_eq_true, Bool.or_eq_true, Option.all_eq_true, decide_eq_true_eq, beq_iff_eq,
    bne_iff_ne, ne_eq] at h
  obtain ⟨⟨h1, h2⟩, h3⟩ := h
  refine ⟨fun r hr => h1 r hr, s.linkLaw_of_check h2, fun h4 => ?_⟩
  rcases h3 with h3 | ⟨h3, h5⟩
  · exact absurd h3 h4
  · exact ⟨h3, fun x hx => h5 x hx⟩

/-- The laws of one tile, checked. -/
def State.tileCheck (s : State) (t : Tile) : Bool :=
  let r := s.tile t
  ((r.owner == none) == (r.hold == 0)) &&
    (parties.all fun p => s.holdsOf p t == if r.owner = some p then r.hold else 0) &&
    (s.params.active t || r.owner == none) && (r.service != .blocked || r.owner == none) &&
    (r.service != .closing || r.owner != none)

/-- The check of a tile is its law. -/
theorem State.tileLaw_of_check {s : State} {t : Tile} (h : s.tileCheck t = true) : s.TileLaw t := by
  simp only [State.tileCheck, Bool.and_eq_true, Bool.or_eq_true, beq_iff_eq, bne_iff_ne, ne_eq, parties,
    List.all_cons, List.all_nil, and_true] at h
  obtain ⟨⟨⟨⟨h1, h2, h3, h4⟩, h5⟩, h6⟩, h7⟩ := h
  refine ⟨?_, fun p => by cases p <;> assumption, fun h => by simpa [h] using h5, fun h => by simpa [h] using h6,
    fun h => by simpa [h] using h7⟩
  constructor
  · intro h
    simpa [h] using h1
  · intro h
    simpa [h] using h1

/-- The laws of the device, checked on a given state. -/
def State.check (s : State) : Bool :=
  decide (s.ArmLaw .A) && decide (s.ArmLaw .B) &&
    decide ((s.mode = .guarding → s.haltLevel = false) ∧ (s.mode ≠ .setup → s.epoch ≠ 0) ∧
      (s.held = false → s.haltLevel = s.haltPinLow) ∧
      (s.held = true → s.mode = .setup ∧ s.haltLevel = false ∧ s.portA.processing = none ∧
        s.portB.processing = none ∧ s.portC.processing = none)) &&
    decide s.HeldLaw && (parties.all fun p => decide (s.StageLaw p)) && decide s.params.Law &&
    (parties.all fun p => decide (s.AttentionLaw p)) &&
    decide (s.CountLaw .A) && decide (s.CountLaw .B) &&
    ([Arm.A, Arm.B].all fun x =>
      s.guardState x == .offline || allTiles.all fun t => !s.touches x t || s.params.active t) &&
    decide ((s.queue.map ClaimName.party).Nodup ∧
      (s.waiters.map fun w => w.wait.arrival).Pairwise (· < ·) ∧ (s.mode ≠ .guarding → s.queue = [])) &&
    (parties.all fun p => slotNos.all fun k =>
      decide ((⟨p, k⟩ : ClaimName) ∈ s.queue ↔ (s.slot p k).state = .pending) && s.slotCheck p k &&
        slotNos.all fun j => !((s.slot p j).state == .draining && (s.slot p k).state == .draining) || j == k) &&
    decide (s.TripLaw .A) && decide (s.TripLaw .B) && (allTiles.all fun t => s.tileCheck t) && decide s.ClosingLaw &&
    (s.waiters.all fun w => allTiles.all fun t => !w.rect.contains t || (s.tile t).service == .opened)

/-- A state that passes the check is lawful. -/
theorem State.lawful_of_check {s : State} (h : s.check = true) : s.Lawful := by
  simp only [State.check, Bool.and_eq_true, decide_eq_true_eq, List.all_eq_true] at h
  obtain ⟨⟨⟨⟨⟨⟨⟨⟨⟨⟨⟨⟨⟨⟨⟨⟨armA, armB⟩, mode⟩, held⟩, stages⟩, params⟩, attention⟩, countA⟩, countB⟩, covers⟩,
    queue⟩, slots⟩, tripA⟩, tripB⟩, tiles⟩, closing⟩, waits⟩ := h
  have party : ∀ p : Party, p ∈ parties := by intro p; cases p <;> decide
  have arm : ∀ x : Arm, x ∈ [Arm.A, Arm.B] := by intro x; cases x <;> decide
  have slot : ∀ k : SlotNo, k ∈ slotNos := by decide
  have one := fun p k => slots p (party p) k (slot k)
  exact {
    mode := ⟨Arm.forall_iff.2 ⟨armA, armB⟩, mode.1, mode.2.1, mode.2.2.1, fun h =>
      ⟨(mode.2.2.2 h).1, (mode.2.2.2 h).2.1, Party.forall_iff.2 (mode.2.2.2 h).2.2⟩⟩
    held := held
    stages := fun p => stages p (party p)
    params := params
    attention := fun p => attention p (party p)
    counts := Arm.forall_iff.2 ⟨countA, countB⟩
    covers := fun x hx t ht => by
      have := covers x (arm x)
      simp only [Bool.or_eq_true, beq_iff_eq, hx, false_or, List.all_eq_true] at this
      simpa [ht] using this t (mem_allTiles t)
    queue := ⟨queue.1, fun p k => (one p k).1.1, queue.2.1, queue.2.2⟩
    claims := ⟨fun p k => s.slotLaw_of_check (one p k).1.2, fun p j k hj hk => by
      have := (one p k).2 j (slot j)
      simpa [hj, hk] using this, Arm.forall_iff.2 ⟨tripA, tripB⟩⟩
    tiles := fun t => s.tileLaw_of_check (tiles t (mem_allTiles t))
    closing := closing
    pendingOpen := fun w hw t ht => by
      have := waits w hw t (mem_allTiles t)
      simpa [ht] using this }

end Sys2Proof.Machine
end

