-- ==== Sys2Proof/Laws/PerInstr.lean ====
section
/-! SUPPORT. One lemma for each command: the fields of a well-formed request pass the frame checks and spell it. -/

namespace Sys2Proof.Laws.RequestSpells

open Sys2Proof

/-- Where a well-formed command is a request, its kind is accepted at its port, its body is within the 60 bytes of a
frame, its report section is one that check 6 of R165 lets pass, and its kind and command section spell that very
command (R165, R167). -/
def Statement (i : Instr) : Prop :=
  ∀ q, i.request = some q → i.wf = true →
    kindAccepted q.port q.kind = true ∧ q.bodyBytes.length ≤ 60 ∧
    (∀ r, q.rep = some r → q.port ≠ .C ∧ r.probes.length ≤ 2) ∧
    commandOf q.port q.kind q.tag q.rep q.body = some i

/-- A command that is not a request spells none. -/
theorem of_not_request {i : Instr} (h : i.request = none) : Statement i := by
  intro q hq
  simp [h] at hq

/-- A report section that may stand at a port takes at most 19 bytes. -/
theorem reportLength_le {p : Party} {rep : Option Report} (h : reportAllowed p rep = true) :
    reportLength rep ≤ 19 ∧ ∀ r, rep = some r → p ≠ .C ∧ r.probes.length ≤ 2 := by
  cases rep with
  | none => simp [reportLength]
  | some r => cases p <;> simp_all [reportAllowed, reportLength, Report.wf] <;> omega

/-- A request follows the law where its fields do. -/
theorem of_request {i : Instr} {q : Request} (hq : i.request = some q)
    (hk : i.wf = true → kindAccepted q.port q.kind = true) (hr : i.wf = true → reportAllowed q.port q.rep = true)
    (hb : i.wf = true → reportLength q.rep + q.body.length ≤ 60)
    (hc : i.wf = true → commandOf q.port q.kind q.tag q.rep q.body = some i) : Statement i := by
  intro q' hq' hwf
  obtain rfl : q = q' := by simpa [hq] using hq'
  exact ⟨hk hwf, by rw [Request.bodyBytes_length]; exact hb hwf, (reportLength_le (hr hwf)).2, hc hwf⟩

/-- EXCHANGE_END. -/
theorem exchangeEnd (p : Party) (f : Frame) : Statement (.exchangeEnd p f) :=
  of_not_request rfl

/-- OVERRUN. -/
theorem overrun (p : Party) (f : Frame) : Statement (.overrun p f) :=
  of_not_request rfl

/-- NOP. -/
theorem nop (p : Party) (tag : BitVec 4) (rep : Option Report) : Statement (.nop p tag rep) :=
  of_request rfl (fun _ => by simp [kindAccepted, kindsOfAll]) (fun h => h)
    (fun h => by have := (reportLength_le (p := p) h).1; simp; omega)
    (fun _ => by simp [commandOf, kindsOfAll, commonCommand])

/-- ACK. -/
theorem ack (p : Party) (tag : BitVec 4) (rep : Option Report) (codes : List Byte) : Statement (.ack p tag rep codes) :=
  of_request rfl (fun _ => by simp [kindAccepted, kindsOfAll]) (fun h => by simp_all [Instr.wf])
    (fun h => by
      simp only [Instr.wf, Bool.and_eq_true, decide_eq_true_eq] at h
      have := (reportLength_le h.1).1
      have := h.2
      simp only; omega)
    (fun h => by simp_all [Instr.wf, commandOf, kindsOfAll, commonCommand])

/-- READ_ROW. -/
theorem readRow (p : Party) (tag : BitVec 4) (rep : Option Report) (row : Byte) : Statement (.readRow p tag rep row) :=
  of_request rfl (fun _ => by simp [kindAccepted, kindsOfAll]) (fun h => h)
    (fun h => by have := (reportLength_le (p := p) h).1; simp; omega)
    (fun _ => by simp [commandOf, kindsOfAll, commonCommand])

/-- JOIN. -/
theorem join (x : Arm) (tag : BitVec 4) (rep : Option Report) (epoch : Byte) : Statement (.join x tag rep epoch) :=
  of_request rfl (fun _ => by cases x <;> rfl) (fun h => h)
    (fun h => by have := (reportLength_le (p := x.party) h).1; simp; omega)
    (fun _ => by cases x <;> rfl)

/-- LEAVE. -/
theorem leave (x : Arm) (tag : BitVec 4) (rep : Option Report) : Statement (.leave x tag rep) :=
  of_request rfl (fun _ => by cases x <;> rfl) (fun h => h)
    (fun h => by have := (reportLength_le (p := x.party) h).1; simp; omega)
    (fun _ => by cases x <;> rfl)

/-- CLEAR_TRIP. -/
theorem clearTrip (x : Arm) (tag : BitVec 4) (rep : Option Report) : Statement (.clearTrip x tag rep) :=
  of_request rfl (fun _ => by cases x <;> rfl) (fun h => h)
    (fun h => by have := (reportLength_le (p := x.party) h).1; simp; omega)
    (fun _ => by cases x <;> rfl)

/-- READ_TRIP. -/
theorem readTrip (p : Party) (tag : BitVec 4) (rep : Option Report) (arm : Option Byte) : Statement (.readTrip p tag rep arm) :=
  of_request rfl (fun _ => by simp [kindAccepted, kindsOfAll]) (fun h => by simp_all [Instr.wf])
    (fun h => by
      simp only [Instr.wf, Bool.and_eq_true] at h
      have := (reportLength_le h.1).1
      cases arm <;> simp <;> omega)
    (fun h => by
      cases arm <;> cases p <;> simp_all [Instr.wf, commandOf, kindsOfAll, commonCommand])

/-- CLAIM. -/
theorem claim (p : Party) (tag : BitVec 4) (rep : Option Report) (c0 c1 r0 r1 : Byte) : Statement (.claim p tag rep c0 c1 r0 r1) :=
  of_request rfl (fun _ => by simp [kindAccepted, kindsOfAll]) (fun h => h)
    (fun h => by have := (reportLength_le (p := p) h).1; simp; omega)
    (fun _ => by simp [commandOf, kindsOfAll, commonCommand])

/-- SHIFT. -/
theorem shift (p : Party) (tag : BitVec 4) (rep : Option Report) (src c0 c1 r0 r1 : Byte) : Statement (.shift p tag rep src c0 c1 r0 r1) :=
  of_request rfl (fun _ => by simp [kindAccepted, kindsOfAll]) (fun h => h)
    (fun h => by have := (reportLength_le (p := p) h).1; simp; omega)
    (fun _ => by simp [commandOf, kindsOfAll, commonCommand])

/-- RELEASE. -/
theorem release (p : Party) (tag : BitVec 4) (rep : Option Report) (slot : Byte) : Statement (.release p tag rep slot) :=
  of_request rfl (fun _ => by simp [kindAccepted, kindsOfAll]) (fun h => h)
    (fun h => by have := (reportLength_le (p := p) h).1; simp; omega)
    (fun _ => by simp [commandOf, kindsOfAll, commonCommand])

/-- BLOCK. -/
theorem block (tag : BitVec 4) (c0 c1 r0 r1 : Byte) : Statement (.block tag c0 c1 r0 r1) :=
  of_request rfl (fun _ => rfl) (fun _ => rfl) (fun _ => by simp [reportLength]) (fun _ => rfl)

/-- UNBLOCK. -/
theorem unblock (tag : BitVec 4) (c0 c1 r0 r1 : Byte) : Statement (.unblock tag c0 c1 r0 r1) :=
  of_request rfl (fun _ => rfl) (fun _ => rfl) (fun _ => by simp [reportLength]) (fun _ => rfl)

/-- WRITE_ROW. -/
theorem writeRow (tag : BitVec 4) (row col : Byte) (entries : List Byte) : Statement (.writeRow tag row col entries) :=
  of_request rfl (fun _ => rfl) (fun _ => rfl)
    (fun h => by simp only [Instr.wf, decide_eq_true_eq] at h; simp [reportLength]; omega) (fun _ => rfl)

/-- SET_PARAM. -/
theorem setParam (tag : BitVec 4) (ident : Byte) (value : Word16) : Statement (.setParam tag ident value) :=
  of_request rfl (fun _ => rfl) (fun _ => rfl) (fun _ => by simp [reportLength])
    (fun _ => congrArg (fun v => some (Instr.setParam tag ident v)) (word16_hi_lo value))

/-- GET_PARAM. -/
theorem getParam (tag : BitVec 4) (ident : Byte) : Statement (.getParam tag ident) :=
  of_request rfl (fun _ => rfl) (fun _ => rfl) (fun _ => by simp [reportLength]) (fun _ => rfl)

/-- START. -/
theorem start (tag : BitVec 4) : Statement (.start tag) :=
  of_request rfl (fun _ => rfl) (fun _ => rfl) (fun _ => by simp [reportLength]) (fun _ => rfl)

/-- STOP. -/
theorem stop (tag : BitVec 4) : Statement (.stop tag) :=
  of_request rfl (fun _ => rfl) (fun _ => rfl) (fun _ => by simp [reportLength]) (fun _ => rfl)

/-- HALT. -/
theorem halt (tag : BitVec 4) : Statement (.halt tag) :=
  of_request rfl (fun _ => rfl) (fun _ => rfl) (fun _ => by simp [reportLength]) (fun _ => rfl)

/-- CLEAR_HALT. -/
theorem clearHalt (tag : BitVec 4) : Statement (.clearHalt tag) :=
  of_request rfl (fun _ => rfl) (fun _ => rfl) (fun _ => by simp [reportLength]) (fun _ => rfl)

/-- EVICT. -/
theorem evict (tag : BitVec 4) (arm : Byte) : Statement (.evict tag arm) :=
  of_request rfl (fun _ => rfl) (fun _ => rfl) (fun _ => by simp [reportLength]) (fun _ => rfl)

/-- READ_CLAIMS. -/
theorem readClaims (tag : BitVec 4) (party : Byte) : Statement (.readClaims tag party) :=
  of_request rfl (fun _ => rfl) (fun _ => rfl) (fun _ => by simp [reportLength]) (fun _ => rfl)

/-- READ_QUEUE. -/
theorem readQueue (tag : BitVec 4) : Statement (.readQueue tag) :=
  of_request rfl (fun _ => rfl) (fun _ => rfl) (fun _ => by simp [reportLength]) (fun _ => rfl)

/-- READ_ARM. -/
theorem readArm (tag : BitVec 4) (arm : Byte) : Statement (.readArm tag arm) :=
  of_request rfl (fun _ => rfl) (fun _ => rfl) (fun _ => by simp [reportLength]) (fun _ => rfl)

/-- REPORT_PERIOD_EXPIRY. -/
theorem reportPeriodExpiry (x : Arm) : Statement (.reportPeriodExpiry x) :=
  of_not_request rfl

/-- WAIT_LIMIT_EXPIRY. -/
theorem waitLimitExpiry (p : Party) (k : SlotNo) : Statement (.waitLimitExpiry p k) :=
  of_not_request rfl

/-- YIELD_TIME. -/
theorem yieldTime (p : Party) (k : SlotNo) : Statement (.yieldTime p k) :=
  of_not_request rfl

/-- HALT_LINE_ASSERTION. -/
theorem haltLineAssertion : Statement .haltLineAssertion :=
  of_not_request rfl

/-- HALT_LINE_RELEASE. -/
theorem haltLineRelease : Statement .haltLineRelease :=
  of_not_request rfl

/-- RESET. -/
theorem reset : Statement .reset :=
  of_not_request rfl

/-- RESET_RELEASE. -/
theorem resetRelease : Statement .resetRelease :=
  of_not_request rfl

/-- FRAME_CHECK_REFUSAL. -/
theorem frameCheckRefusal (p : Party) : Statement (.frameCheckRefusal p) :=
  of_not_request rfl

end Sys2Proof.Laws.RequestSpells
end

