-- ==== Sys2Proof/Laws/Requests.lean ====
section
/-! SUPPORT. One lemma for each request: what `exec` answers where its port has taken it, in terms of what its command
section does. -/

namespace Sys2Proof.Machine

open Sys2Proof

/-- `serve` with the request written out. -/
theorem serve_request {c : Instr} {p : Party} {tag : BitVec 4} {rep : Option Report} {kind : Byte} {body : List Byte}
    (command : State → State × Answer) {s : State} (hq : c.request = some ⟨p, tag, rep, kind, body⟩)
    (h : s.taken p c = true) :
    serve c command s =
      .next ((command (s.afterReport p rep)).1.placeReply p tag kind (command (s.afterReport p rep)).2) :=
  serve_taken command hq h

/-- `serve` for a request of the Cell Port, which carries no report. -/
theorem serve_cell {c : Instr} {tag : BitVec 4} {rep : Option Report} {kind : Byte} {body : List Byte}
    (command : State → State × Answer) {s : State} (hq : c.request = some ⟨.C, tag, rep, kind, body⟩)
    (h : s.taken .C c = true) :
    serve c command s = .next ((command s).1.placeReply .C tag kind (command s).2) := by
  simpa using serve_taken command hq h

/-- NOP. -/
theorem exec_nop (p : Party) (tag : BitVec 4) (rep : Option Report) {s : State}
    (h : s.taken p (.nop p tag rep) = true) :
    exec (.nop p tag rep) s =
      .next ((s.afterReport p rep).placeReply p tag 1 ⟨.done, false, .empty⟩) :=
  serve_request (fun s1 => (s1, (⟨.done, false, .empty⟩ : Answer))) rfl h

/-- ACK. -/
theorem exec_ack (p : Party) (tag : BitVec 4) (rep : Option Report) (codes : List Byte) {s : State}
    (h : s.taken p (.ack p tag rep codes) = true) :
    exec (.ack p tag rep codes) s =
      .next ((ackRequest p codes (s.afterReport p rep)).1.placeReply p tag 2 (ackRequest p codes (s.afterReport p rep)).2) :=
  serve_request _ rfl h

/-- READ_ROW. -/
theorem exec_readRow (p : Party) (tag : BitVec 4) (rep : Option Report) (row : Byte) {s : State}
    (h : s.taken p (.readRow p tag rep row) = true) :
    exec (.readRow p tag rep row) s =
      .next ((readRowRequest row (s.afterReport p rep)).1.placeReply p tag 3 (readRowRequest row (s.afterReport p rep)).2) :=
  serve_request _ rfl h

/-- JOIN. -/
theorem exec_join (x : Arm) (tag : BitVec 4) (rep : Option Report) (epoch : Byte) {s : State}
    (h : s.taken x.party (.join x tag rep epoch) = true) :
    exec (.join x tag rep epoch) s =
      .next ((joinRequest x epoch (s.afterReport x.party rep)).1.placeReply x.party tag 16 (joinRequest x epoch (s.afterReport x.party rep)).2) :=
  serve_request _ rfl h

/-- LEAVE. -/
theorem exec_leave (x : Arm) (tag : BitVec 4) (rep : Option Report) {s : State}
    (h : s.taken x.party (.leave x tag rep) = true) :
    exec (.leave x tag rep) s =
      .next ((leaveRequest x (s.afterReport x.party rep)).1.placeReply x.party tag 17 (leaveRequest x (s.afterReport x.party rep)).2) :=
  serve_request _ rfl h

/-- CLEAR_TRIP. -/
theorem exec_clearTrip (x : Arm) (tag : BitVec 4) (rep : Option Report) {s : State}
    (h : s.taken x.party (.clearTrip x tag rep) = true) :
    exec (.clearTrip x tag rep) s =
      .next ((clearTripRequest x (s.afterReport x.party rep)).1.placeReply x.party tag 18 (clearTripRequest x (s.afterReport x.party rep)).2) :=
  serve_request _ rfl h

/-- READ_TRIP. -/
theorem exec_readTrip (p : Party) (tag : BitVec 4) (rep : Option Report) (arm : Option Byte) {s : State}
    (h : s.taken p (.readTrip p tag rep arm) = true) :
    exec (.readTrip p tag rep arm) s =
      .next ((readTripRequest p arm (s.afterReport p rep)).1.placeReply p tag 19 (readTripRequest p arm (s.afterReport p rep)).2) :=
  serve_request _ rfl h

/-- CLAIM. -/
theorem exec_claim (p : Party) (tag : BitVec 4) (rep : Option Report) (c0 c1 r0 r1 : Byte) {s : State}
    (h : s.taken p (.claim p tag rep c0 c1 r0 r1) = true) :
    exec (.claim p tag rep c0 c1 r0 r1) s =
      .next ((claimRequest p c0 c1 r0 r1 (s.afterReport p rep)).1.placeReply p tag 32 (claimRequest p c0 c1 r0 r1 (s.afterReport p rep)).2) :=
  serve_request _ rfl h

/-- SHIFT. -/
theorem exec_shift (p : Party) (tag : BitVec 4) (rep : Option Report) (src c0 c1 r0 r1 : Byte) {s : State}
    (h : s.taken p (.shift p tag rep src c0 c1 r0 r1) = true) :
    exec (.shift p tag rep src c0 c1 r0 r1) s =
      .next ((shiftRequest p src c0 c1 r0 r1 (s.afterReport p rep)).1.placeReply p tag 33 (shiftRequest p src c0 c1 r0 r1 (s.afterReport p rep)).2) :=
  serve_request _ rfl h

/-- RELEASE. -/
theorem exec_release (p : Party) (tag : BitVec 4) (rep : Option Report) (slot : Byte) {s : State}
    (h : s.taken p (.release p tag rep slot) = true) :
    exec (.release p tag rep slot) s =
      .next ((releaseRequest p slot (s.afterReport p rep)).1.placeReply p tag 34 (releaseRequest p slot (s.afterReport p rep)).2) :=
  serve_request _ rfl h

/-- BLOCK. -/
theorem exec_block (tag : BitVec 4) (c0 c1 r0 r1 : Byte) {s : State}
    (h : s.taken .C (.block tag c0 c1 r0 r1) = true) :
    exec (.block tag c0 c1 r0 r1) s =
      .next ((blockRequest c0 c1 r0 r1 s).1.placeReply .C tag 48 (blockRequest c0 c1 r0 r1 s).2) :=
  serve_cell _ rfl h

/-- UNBLOCK. -/
theorem exec_unblock (tag : BitVec 4) (c0 c1 r0 r1 : Byte) {s : State}
    (h : s.taken .C (.unblock tag c0 c1 r0 r1) = true) :
    exec (.unblock tag c0 c1 r0 r1) s =
      .next ((unblockRequest c0 c1 r0 r1 s).1.placeReply .C tag 49 (unblockRequest c0 c1 r0 r1 s).2) :=
  serve_cell _ rfl h

/-- WRITE_ROW. -/
theorem exec_writeRow (tag : BitVec 4) (row col : Byte) (entries : List Byte) {s : State}
    (h : s.taken .C (.writeRow tag row col entries) = true) :
    exec (.writeRow tag row col entries) s =
      .next ((writeRowRequest row col entries s).1.placeReply .C tag 50 (writeRowRequest row col entries s).2) :=
  serve_cell _ rfl h

/-- SET_PARAM. -/
theorem exec_setParam (tag : BitVec 4) (ident : Byte) (value : Word16) {s : State}
    (h : s.taken .C (.setParam tag ident value) = true) :
    exec (.setParam tag ident value) s =
      .next ((setParamRequest ident value s).1.placeReply .C tag 64 (setParamRequest ident value s).2) :=
  serve_cell _ rfl h

/-- GET_PARAM. -/
theorem exec_getParam (tag : BitVec 4) (ident : Byte) {s : State}
    (h : s.taken .C (.getParam tag ident) = true) :
    exec (.getParam tag ident) s =
      .next ((getParamRequest ident s).1.placeReply .C tag 65 (getParamRequest ident s).2) :=
  serve_cell _ rfl h

/-- START. -/
theorem exec_start (tag : BitVec 4) {s : State}
    (h : s.taken .C (.start tag) = true) :
    exec (.start tag) s =
      .next ((startRequest s).1.placeReply .C tag 66 (startRequest s).2) :=
  serve_cell _ rfl h

/-- STOP. -/
theorem exec_stop (tag : BitVec 4) {s : State}
    (h : s.taken .C (.stop tag) = true) :
    exec (.stop tag) s =
      .next ((stopRequest s).1.placeReply .C tag 67 (stopRequest s).2) :=
  serve_cell _ rfl h

/-- HALT. -/
theorem exec_halt (tag : BitVec 4) {s : State}
    (h : s.taken .C (.halt tag) = true) :
    exec (.halt tag) s =
      .next ((haltRequest s).1.placeReply .C tag 68 (haltRequest s).2) :=
  serve_cell _ rfl h

/-- CLEAR_HALT. -/
theorem exec_clearHalt (tag : BitVec 4) {s : State}
    (h : s.taken .C (.clearHalt tag) = true) :
    exec (.clearHalt tag) s =
      .next ((clearHaltRequest s).1.placeReply .C tag 69 (clearHaltRequest s).2) :=
  serve_cell _ rfl h

/-- EVICT. -/
theorem exec_evict (tag : BitVec 4) (arm : Byte) {s : State}
    (h : s.taken .C (.evict tag arm) = true) :
    exec (.evict tag arm) s =
      .next ((evictRequest arm s).1.placeReply .C tag 70 (evictRequest arm s).2) :=
  serve_cell _ rfl h

/-- READ_CLAIMS. -/
theorem exec_readClaims (tag : BitVec 4) (party : Byte) {s : State}
    (h : s.taken .C (.readClaims tag party) = true) :
    exec (.readClaims tag party) s =
      .next ((readClaimsRequest party s).1.placeReply .C tag 80 (readClaimsRequest party s).2) :=
  serve_cell _ rfl h

/-- READ_QUEUE. -/
theorem exec_readQueue (tag : BitVec 4) {s : State}
    (h : s.taken .C (.readQueue tag) = true) :
    exec (.readQueue tag) s =
      .next ((readQueueRequest s).1.placeReply .C tag 81 (readQueueRequest s).2) :=
  serve_cell _ rfl h

/-- READ_ARM. -/
theorem exec_readArm (tag : BitVec 4) (arm : Byte) {s : State}
    (h : s.taken .C (.readArm tag arm) = true) :
    exec (.readArm tag arm) s =
      .next ((readArmRequest arm s).1.placeReply .C tag 82 (readArmRequest arm s).2) :=
  serve_cell _ rfl h

end Sys2Proof.Machine
end

