-- ==== Sys2Proof/Tests/Slice0.lean ====
section
/-! SUPPORT. Tests. The first part checks that ill-formed commands are refused, that frames written out by hand from R166
and R167 spell the requests they stand for, and single steps against the worked cases of the spec. The second part holds
one `witness_` theorem for every statement with hypotheses: concrete states and operands that meet them. -/

namespace Sys2Proof.Tests

open Sys2Proof Sys2Proof.Machine

-- One theorem at a time: each one's kernel evaluation would otherwise wait on a thread of its own.
set_option Elab.async false

/-! ### Helpers -/

/-- The state a command leaves. -/
def after (c : Instr) (s : State) : State :=
  match exec c s with
  | .next t => t
  | .fault _ => s
  | .refused _ => s

/-- The port of a request has taken its frame. -/
def latch (c : Instr) (s : State) : State :=
  match c.request with
  | some q => s.setPort q.port { s.port q.port with processing := some q.frame }
  | none => s

/-- A request taken and processed, or another command. -/
def run (c : Instr) (s : State) : State := after c (latch c s)

/-- The state that an idle step leaves. -/
def idled (s : State) : State :=
  match step { s with pending := [] } with
  | .next t => t
  | .fault _ => s
  | .refused _ => s

/-- The guard state, the permit flag and the notices in the reply of an Arm Port. -/
def shown (x : Arm) (s : State) : Option (GuardState × Bool × List Notice) :=
  match (s.port x.party).reply with
  | .normal b =>
    match b.status with
    | .arm g p _ _ _ => some (g, p, b.attention)
    | .cell .. => none
  | .restarted _ => none

/-- Result and payload of the reply in a port's buffer. -/
def answer (p : Party) (s : State) : Option (Result × Payload) :=
  match (s.port p).reply with
  | .normal b => some (b.result, b.payload)
  | .restarted _ => none

/-- A probe record of a kind. -/
def probe (kind x y vx vy : Int) : Probe :=
  ⟨BitVec.ofInt 8 kind, BitVec.ofInt 16 x, BitVec.ofInt 16 y, BitVec.ofInt 16 vx, BitVec.ofInt 16 vy⟩

/-- A report with a TOOL record alone. -/
def report (count : Nat) (x y vx vy : Int) : Report := ⟨BitVec.ofNat 4 count, [probe 1 x y vx vy]⟩

/-- A NOP of an arm with such a report. -/
def nop (x : Arm) (rep : Report) : Instr := .nop x.party 0 (some rep)

/-- GUARDING with epoch 1. -/
def guarding : State := { State.reset with mode := .guarding, epoch := 1 }

/-- An arm in a guard state, its timer running. -/
def withArm (x : Arm) (g : GuardState) (s : State) : State :=
  s.setArm x
    { monitor := ⟨none, none, 0, some 1000⟩, evaluation := none,
      guard := ⟨g, g == .live, if g = .live then 4 else 0, some 1, none⟩ }

/-- A HELD claim. -/
def holding (p : Party) (k : SlotNo) (c0 c1 r0 r1 : Nat) (s : State) : State :=
  let r : Rect := ⟨c0, c1, r0, r1⟩
  (s.addHolds p r.contains).setSlot p k (.held r none)

/-- A PENDING claim at the tail of the queue. -/
def waiting (p : Party) (k : SlotNo) (c0 c1 r0 r1 : Nat) (s : State) : State := s.enqueue p k ⟨c0, c1, r0, r1⟩ none

/-- Both arms LIVE in GUARDING. -/
def bothLive : State := withArm .B .live (withArm .A .live guarding)

/-- The service, class, owner and hold count of a tile. -/
def tileAt (c : Fin 16) (r : Fin 8) (s : State) : Service × Fin 4 × Option Party × Nat :=
  let q := s.tile ⟨c, r⟩
  (q.service, q.speedClass, q.owner, q.hold)

/-! ### Well-formed commands -/

/-- Eight bits of an unfinished byte would be a byte. -/
theorem test_wf_exchange : (Instr.exchangeEnd .A ⟨[], List.replicate 8 true⟩).wf = false := by decide

/-- No report comes at the Cell Port. -/
theorem test_wf_cell_report : (Instr.nop .C 0 (some (report 1 0 0 0 0))).wf = false := by decide

/-- A report has at most two probe records. -/
theorem test_wf_three_probes :
    (Instr.join .A 0 (some ⟨1, List.replicate 3 (probe 1 0 0 0 0)⟩) 1).wf = false := by decide

/-- An ACK lists at most 16 codes. -/
theorem test_wf_ack : (Instr.ack .A 0 none (List.replicate 17 1)).wf = false := by decide

/-- A READ_TRIP names an arm at the Cell Port and none at an Arm Port. -/
theorem test_wf_read_trip :
    (Instr.readTrip .A 0 none (some 0)).wf = false ∧ (Instr.readTrip .C 0 none none).wf = false := by decide

/-- A body has at most 60 bytes. -/
theorem test_wf_write_row : (Instr.writeRow 0 0 0 (List.replicate 59 0)).wf = false := by decide

/-! ### Frames written from R166 and R167 -/

/-- NOP, kind 1, tag 4, no body; and with a report of count 9 and a TOOL record at x = −600 (FDA8), y = 1,000 (03E8). -/
theorem test_frame_nop :
    decodeFrame .A ⟨[0x01, 0x04, 0x00, 0x05], []⟩ = .accepted (.nop .A 4 none) ∧
    decodeFrame .A ⟨[0x01, 0x84, 0x0a, 0x91, 0x01, 0xfd, 0xa8, 0x03, 0xe8, 0, 0, 0, 0, 0xa1], []⟩ =
      .accepted (.nop .A 4 (some (report 9 (-600) 1000 0 0))) := by decide

/-- ACK, kind 2, with the codes 12 and 1; READ_ROW, kind 3, row 2. -/
theorem test_frame_ack_read_row :
    decodeFrame .C ⟨[0x02, 0x08, 0x02, 0x0c, 0x01, 0x05], []⟩ = .accepted (.ack .C 8 none [12, 1]) ∧
    decodeFrame .B ⟨[0x03, 0x01, 0x01, 0x02, 0x01], []⟩ = .accepted (.readRow .B 1 none 2) := by decide

/-- JOIN, kind 16, epoch 1; LEAVE, kind 17; CLEAR_TRIP, kind 18; READ_TRIP, kind 19, at both kinds of port. -/
theorem test_frame_guard :
    decodeFrame .A ⟨[0x10, 0x02, 0x01, 0x01, 0x12], []⟩ = .accepted (.join .A 2 none 1) ∧
    decodeFrame .B ⟨[0x11, 0x00, 0x00, 0x11], []⟩ = .accepted (.leave .B 0 none) ∧
    decodeFrame .B ⟨[0x12, 0x00, 0x00, 0x12], []⟩ = .accepted (.clearTrip .B 0 none) ∧
    decodeFrame .A ⟨[0x13, 0x00, 0x00, 0x13], []⟩ = .accepted (.readTrip .A 0 none none) ∧
    decodeFrame .C ⟨[0x13, 0x00, 0x01, 0x01, 0x13], []⟩ = .accepted (.readTrip .C 0 none (some 1)) := by decide

/-- CLAIM, kind 32, cols 0..2, rows 0..1; SHIFT, kind 33, slot 0 to cols 2..4, rows 0..1; RELEASE, kind 34, slot 4. -/
theorem test_frame_claims :
    decodeFrame .A ⟨[0x20, 0x05, 0x04, 0x00, 0x02, 0x00, 0x01, 0x22], []⟩ = .accepted (.claim .A 5 none 0 2 0 1) ∧
    decodeFrame .A ⟨[0x21, 0x05, 0x05, 0x00, 0x02, 0x04, 0x00, 0x01, 0x26], []⟩ =
      .accepted (.shift .A 5 none 0 2 4 0 1) ∧
    decodeFrame .B ⟨[0x22, 0x0f, 0x01, 0x04, 0x28], []⟩ = .accepted (.release .B 15 none 4) := by decide

/-- BLOCK, kind 48; UNBLOCK, kind 49; WRITE_ROW, kind 50, row 2, start column 6 and the entries OPEN 1 and BLOCKED 0. -/
theorem test_frame_tiles :
    decodeFrame .C ⟨[0x30, 0x00, 0x04, 0x02, 0x04, 0x00, 0x01, 0x33], []⟩ = .accepted (.block 0 2 4 0 1) ∧
    decodeFrame .C ⟨[0x31, 0x00, 0x04, 0x02, 0x04, 0x00, 0x01, 0x32], []⟩ = .accepted (.unblock 0 2 4 0 1) ∧
    decodeFrame .C ⟨[0x32, 0x00, 0x04, 0x02, 0x06, 0x01, 0x10, 0x23], []⟩ =
      .accepted (.writeRow 0 2 6 [0x01, 0x10]) := by decide

/-- SET_PARAM, kind 64, identifier 24, value 1,000 (03E8); GET_PARAM, kind 65; START to CLEAR_HALT, kinds 66 to 69. -/
theorem test_frame_modes :
    decodeFrame .C ⟨[0x40, 0x00, 0x03, 0x18, 0x03, 0xe8, 0xb0], []⟩ = .accepted (.setParam 0 24 1000) ∧
    decodeFrame .C ⟨[0x41, 0x00, 0x01, 0x18, 0x58], []⟩ = .accepted (.getParam 0 24) ∧
    decodeFrame .C ⟨[0x42, 0x03, 0x00, 0x41], []⟩ = .accepted (.start 3) ∧
    decodeFrame .C ⟨[0x43, 0x03, 0x00, 0x40], []⟩ = .accepted (.stop 3) ∧
    decodeFrame .C ⟨[0x44, 0x03, 0x00, 0x47], []⟩ = .accepted (.halt 3) ∧
    decodeFrame .C ⟨[0x45, 0x03, 0x00, 0x46], []⟩ = .accepted (.clearHalt 3) := by decide

/-- EVICT, kind 70, arm B; READ_CLAIMS, READ_QUEUE and READ_ARM, kinds 80 to 82. -/
theorem test_frame_reads :
    decodeFrame .C ⟨[0x46, 0x00, 0x01, 0x01, 0x46], []⟩ = .accepted (.evict 0 1) ∧
    decodeFrame .C ⟨[0x50, 0x00, 0x01, 0x02, 0x53], []⟩ = .accepted (.readClaims 0 2) ∧
    decodeFrame .C ⟨[0x51, 0x00, 0x00, 0x51], []⟩ = .accepted (.readQueue 0) ∧
    decodeFrame .C ⟨[0x52, 0x00, 0x01, 0x00, 0x53], []⟩ = .accepted (.readArm 0 0) := by decide

/-- The frame checks in their order: an unfinished byte, a short body, a wrong check byte, a kind of another port, a
report with three probes (R165). -/
theorem test_frame_refused :
    decodeFrame .A ⟨[0x01, 0x04, 0x00, 0x05], [true]⟩ = .refused .badFrame ∧
    decodeFrame .A ⟨[0x01, 0x04, 0x02, 0x05], []⟩ = .refused .badFrame ∧
    decodeFrame .A ⟨[0x01, 0x07, 0x00, 0x05], []⟩ = .refused .badCheck ∧
    decodeFrame .A ⟨[0x42, 0x03, 0x00, 0x41], []⟩ = .refused .badKind ∧
    decodeFrame .A ⟨[0x01, 0x84, 0x01, 0x93, 0x17], []⟩ = .refused .badFrame := by decide

/-! ### Exchanges -/

/-- At power-on the first bytes out of the Cell Port are the RESTARTED reply: kind 2, length 19, tag 0, kind 0. -/
theorem test_exchange_end :
    let s := after (.exchangeEnd .C ⟨[1, 0, 0, 1], []⟩) State.reset
    s.portC.shifted.bytes = [2, 19, 0, 0] ∧ s.taken .C (.nop .C 0 none) = true := by decide +kernel

/-- Section 10.8, exchange 3: an overrun while CLAIM with tag 5 is in processing. -/
theorem test_overrun :
    let s := after (.overrun .A ⟨[1, 6, 0, 7, 9, 9], []⟩) (latch (.claim .A 5 none 0 1 0 0) bothLive)
    s.portA.shifted.bytes = [1, 5, 5, 32, 33, 0] ∧ s.portA.attention = [.portFault] ∧ s.portA.line = true ∧
    s.taken .A (.claim .A 5 none 0 1 0 0) = true := by decide +kernel

/-- Section 10.8, exchange 4: a wrong check byte is answered BAD_CHECK with tag 7. -/
theorem test_frame_check_refusal :
    let s := { bothLive with portA := { bothLive.portA with processing := some ⟨[1, 7, 0, 0], []⟩ } }
    answer .A (after (.frameCheckRefusal .A) s) = some (.badCheck, .empty) := by decide +kernel

/-- Section 10.8, exchange 5: PORT_FAULT is removed and the attention line falls. -/
theorem test_ack :
    let s := run (.ack .A 8 none [12, 7]) (bothLive.raise .A .portFault)
    answer .A s = some (.done, .removed [12]) ∧ s.portA.attention = [] ∧ s.portA.line = false := by decide +kernel

/-- A notice stays present once and takes the latest detail. -/
theorem test_notice_latest :
    (((bothLive.raise .A (.granted 0)).raise .A (.live 4)).raise .A (.granted 2)).portA.attention =
      [.granted 2, .live 4] := by decide +kernel

/-! ### Reports and evaluations (sections 2.9, 3.9, 7.12) -/

/-- The grid of section 2.9. -/
def wide (s : State) : State := { s with params := { s.params with ncol := 12, nrow := 6 } }

/-- Section 2.9.1, map 1a: the envelope and its CLEAR result. -/
theorem test_case1a :
    let s := run (nop .A (report 1 2345 1210 1500 (-400))) (holding .A 0 3 7 0 2 (wide bothLive))
    (s.armA.evaluation.map fun e => (e.result, e.tool.envelope)) =
      some (none, some ⟨2145, 3145, 938, 1410, some (4, 6), (1, 2), false, false⟩) := by decide +kernel

/-- Section 2.9.1, map 1c: FOREIGN at (6, 1), B among the foreign owners. -/
theorem test_case1c :
    let s := run (nop .A (report 1 2345 1210 1500 (-400)))
      (holding .B 0 6 8 0 2 (holding .A 0 3 5 0 2 (wide (withArm .A .arming guarding))))
    (s.armA.evaluation.map fun e => (e.result, e.kind, e.tile, e.foreign)) =
      some (some .foreign, some .tool, some ⟨6, 1⟩, ⟨false, true, false⟩) := by decide +kernel

/-- Section 2.9.2: stop distance and inflation rounded up. -/
theorem test_stop_distance :
    stopDistance 1234 7 25 = 392 ∧ inflation 1234 1 1000 = 13 ∧ inflation 1234 2 1000 = 25 ∧
    inflation 1234 3 1000 = 38 ∧ inflation 1500 2 1000 = 30 ∧ inflation 1500 9 1000 = 135 := by decide

/-- Section 2.9.3: an excursion to the home side, and the same probe of arm B. -/
theorem test_case3 :
    let v := (wide bothLive).params.envelope ArmParams.initial 150 0 (probe 1 (-300) 1210 800 0)
    (v.xLo, v.xHi, v.cols, v.rows) = (-500, 108, some (0, 0), (2, 2)) ∧ v.west = true ∧
    ((wide bothLive).probeResult .B v 800) = (.breach .farSide, none) := by decide +kernel

/-- Section 2.9.5: an end on a boundary, and a fold to the south. -/
theorem test_case5 :
    let v := (wide bothLive).params.envelope ArmParams.initial 150 0 (probe 1 2700 100 0 (-600))
    (v.cols, v.yLo, v.yHi, v.rows) = (some (5, 5), -232, 300, (0, 0)) := by decide

/-- Section 3.9, events 3 and 7: missed counts, and the trip at STALE_LIMIT + 1. -/
theorem test_report_period_expiry :
    let m := fun n => ({ lastReport := some (report 6 (-900) 1000 0 0), lastCount := some 6, missed := n, timer := some 0 } : Monitor)
    let s := after (.reportPeriodExpiry .A) (bothLive.setMonitor .A (m 0))
    let t := after (.reportPeriodExpiry .A) (bothLive.setMonitor .A (m 3))
    (s.armA.monitor.missed, s.guardState .A) = (1, .live) ∧
    (t.armA.monitor.missed, t.guardState .A, t.armA.guard.permit) = (4, .tripped, false) ∧
    t.portA.attention = [.tripped .stale] := by decide +kernel

/-- Section 7.12, event 9: a probe speed equal to CREEP completes the run. -/
theorem test_rearm :
    let s := (withArm .A .arming guarding).setGuard .A ⟨.arming, false, 3, some 1, none⟩
    let t := run (nop .A (report 9 (-900) 1000 0 50)) s
    (t.armA.guard.state, t.armA.guard.permit, t.armA.guard.clean) = (.live, true, 4) ∧
    t.portA.attention = [.live 9] := by decide +kernel

/-- R130 with HALT: the report that completes the run is taken at an idle step, and the permit is on until the HALT that
comes before the reply, which shows TRIPPED; with HALT first the report is evaluated in TRIPPED and raises no LIVE. -/
theorem test_live_instant :
    let c := nop .A (report 9 (-900) 1000 0 50)
    let s := latch c ((withArm .A .arming guarding).setGuard .A ⟨.arming, false, 3, some 1, none⟩)
    let first := idled s
    let then_ := run (.halt 0) first
    (first.armA.guard.state, first.armA.guard.permit, first.portA.attention) = (.live, true, [.live 9]) ∧
    first.taken .A c = true ∧ (then_.armA.guard.state, then_.armA.guard.permit) = (.tripped, false) ∧
    shown .A (after c then_) = some (.tripped, false, [.live 9, .tripped .halt, .halted .request]) ∧
    shown .A (after c first) = some (.live, true, [.live 9]) ∧
    shown .A (after c (run (.halt 0) s)) = some (.tripped, false, [.tripped .halt, .halted .request]) := by
  decide +kernel

/-! ### Claims (sections 4.9, 5.11, 5.12, 6.8, 11.2) -/

/-- Section 11.2, event 1, and section 5.12. -/
theorem test_claim :
    answer .A (run (.claim .A 0 none 0 2 0 1) bothLive) = some (.granted, .claimGranted 0 ⟨0, 2, 0, 1⟩) ∧
    answer .C (run (.claim .C 0 none 1 1 1 1)
      (waiting .B 1 5 6 3 3 (waiting .A 1 4 4 1 1
        (holding .C 0 6 6 3 3 (holding .B 0 4 4 1 1 (holding .A 0 1 1 1 1 bothLive)))))) = some (.cycle, .empty) := by
  decide +kernel

/-- Section 5.11, event 3: a cross-wait by precedence is refused CYCLE; event 7: without the cycle it is QUEUED. -/
theorem test_claim_queue :
    let s := waiting .C 0 3 6 0 3 (holding .B 0 5 6 0 3 bothLive)
    answer .A (run (.claim .A 0 none 1 3 2 2) (holding .A 0 3 4 0 1 s)) = some (.cycle, .empty) ∧
    answer .A (run (.claim .A 0 none 2 3 3 3) s) = some (.queued, .claimQueued 0 ⟨2, 3, 3, 3⟩ ⟨false, false, true⟩) := by
  decide +kernel

/-- Section 6.8, event 1, and the same shift with the arm already clear. -/
theorem test_shift :
    let s := holding .A 0 1 3 0 1 bothLive
    answer .A (run (.shift .A 0 none 0 3 5 1 2) (holding .B 0 5 7 2 3 s)) =
      some (.queued, .shiftQueued 1 0 ⟨3, 5, 1, 2⟩ ⟨false, true, false⟩) ∧
    answer .A (run (.shift .A 0 none 0 3 5 1 2) s) =
      some (.granted, .shiftGranted 1 0 ⟨3, 5, 1, 2⟩ .released 5) := by decide +kernel

/-- Section 11.2, event 4: the tool over the source keeps it DRAINING, and the shared column has hold count 2. -/
theorem test_shift_drains :
    let s := run (.shift .A 0 (some (report 5 900 600 0 0)) 0 2 4 0 1) (holding .A 0 0 2 0 1 bothLive)
    answer .A s = some (.granted, .shiftGranted 1 0 ⟨2, 4, 0, 1⟩ .draining 0) ∧
    s.slot .A 0 = .draining ⟨0, 2, 0, 1⟩ 1 ∧ tileAt 2 0 s = (.opened, 0, some .A, 2) := by decide +kernel

/-- The state of section 4.9. -/
def overlapping : State :=
  waiting .B 1 3 3 0 1 (holding .B 0 6 7 0 3 (holding .A 1 4 5 0 1 (holding .A 0 2 4 0 1 bothLive)))

/-- Section 4.9, events 1 and 2: the release frees 4 tiles, and B's waiting claim is granted. -/
theorem test_release :
    let s := run (.release .A 0 (some (report 1 2600 750 0 0)) 0) overlapping
    answer .A s = some (.done, .released 0 .held 4) ∧ s.slot .B 1 = .held ⟨3, 3, 0, 1⟩ none ∧
    s.portB.attention = [.granted 1] ∧ tileAt 4 1 s = (.opened, 0, some .A, 1) := by decide +kernel

/-- Section 4.9, event 3: the tool over (4, 1) and (5, 1) refuses the release OCCUPIED, naming (4, 1). -/
theorem test_release_occupied :
    answer .A (run (.release .A 0 (some (report 1 2450 750 0 0)) 1) (holding .A 1 4 5 0 1 bothLive)) =
      some (.occupied, .tile ⟨4, 1⟩) := by decide +kernel

/-- Section 5.11 at event 7: the queue as READ_QUEUE gives it. -/
theorem test_read_queue :
    answer .C (run (.readQueue 0) (waiting .A 0 2 3 3 3 (waiting .C 0 3 6 0 3 (holding .B 0 5 6 0 3 bothLive)))) =
      some (.done, .queue
        [⟨⟨.C, 0⟩, ⟨3, 6, 0, 3⟩, none, 0, false, ⟨false, true, false⟩⟩,
         ⟨⟨.A, 0⟩, ⟨2, 3, 3, 3⟩, none, 0, false, ⟨false, false, true⟩⟩]) := by decide +kernel

/-- The four slots of C: one HELD claim and one that waits at the head of the queue; a code of no party. -/
theorem test_read_claims :
    let s := waiting .C 1 3 6 0 3 (holding .C 0 0 0 0 0 (holding .B 0 5 6 0 3 bothLive))
    answer .C (run (.readClaims 0 2) s) =
      some (.done, .claims
        [⟨.held, some false, some ⟨0, 0, 0, 0⟩, none, none, none, none, none⟩,
         ⟨.pending, some false, some ⟨3, 6, 0, 3⟩, none, some 1, some 0, some false, none⟩,
         ⟨.empty, none, none, none, none, none, none, none⟩, ⟨.empty, none, none, none, none, none, none, none⟩]) ∧
    answer .C (run (.readClaims 0 3) s) = some (.badFrame, .empty) := by decide +kernel

/-- Section 5.11, event 5: A and B own tiles of the waiting claim. -/
theorem test_yield_time :
    let s := after (.yieldTime .C 0) (waiting .C 0 3 6 0 3 (holding .B 0 5 6 0 3 (holding .A 0 2 4 0 1 bothLive)))
    s.portA.attention = [.yield .C 0] ∧ s.portB.attention = [.yield .C 0] ∧ s.portC.attention = [] := by decide +kernel

/-- Section 5.11, its last paragraph: the claim is removed with EXPIRED. -/
theorem test_wait_limit_expiry :
    let s := after (.waitLimitExpiry .A 0) (waiting .A 0 2 3 3 3 (holding .C 0 3 6 0 3 bothLive))
    s.slot .A 0 = .empty ∧ s.queue = [] ∧ s.portA.attention = [.expired 0] := by decide +kernel

/-! ### The Tile Map (sections 1.7, 1.8) -/

/-- Section 1.7: ten entries from column 6, of which two are discarded, two kept and six written. -/
theorem test_write_row :
    let s := run (.writeRow 0 2 6 [0x01]) State.reset
    let t := run (.writeRow 0 2 6 [0x01, 0x01, 0x00, 0x00, 0x10, 0x04, 0x02, 0x02, 0x23, 0x03]) s
    answer .C t = some (.done, .rowWritten 6 2) ∧
    ([0, 1, 2, 3, 4, 5, 6, 7] : List (Fin 16)).map (fun c => (tileAt c 2 t).2.1) = [0, 0, 0, 0, 2, 2, 1, 3] ∧
    (tileAt 2 2 t).1 = .blocked ∧ (tileAt 6 2 t).1 = .opened := by decide +kernel

/-- READ_ROW of the last row after reset, and of the row beyond it. -/
theorem test_read_row :
    answer .A (run (.readRow .A 0 none 3) State.reset) = some (.done, .row (List.replicate 8 ⟨.opened, 0, none, 0⟩)) ∧
    answer .A (run (.readRow .A 0 none 4) State.reset) = some (.badRect, .empty) := by decide +kernel

/-- The state of section 1.8. -/
def blocking : State :=
  waiting .A 1 4 5 0 0 (waiting .C 0 4 5 2 3 (holding .B 0 5 7 0 3 (holding .A 0 0 2 0 1 bothLive)))

/-- Section 1.8, event 1. -/
theorem test_block :
    let s := run (.block 0 2 4 0 1) blocking
    answer .C s = some (.closing, .blocked 2 4) ∧ tileAt 2 1 s = (.closing, 0, some .A, 1) ∧
    tileAt 3 0 s = (.blocked, 0, none, 0) ∧ s.queue = [⟨.C, 0⟩] ∧ s.portA.attention = [.withdrawn 1 ⟨4, 0⟩] ∧
    s.closing = 2 := by decide +kernel

/-- Section 1.8, event 2: the last hold of a CLOSING tile ends, and BLOCK_DONE is raised. -/
theorem test_block_done :
    let s := run (.release .A 0 none 0) (run (.block 0 2 4 0 1) blocking)
    answer .A s = some (.done, .released 0 .held 6) ∧ tileAt 2 1 s = (.blocked, 0, none, 0) ∧ s.closing = 0 ∧
    s.portC.attention = [.blockDone] := by decide +kernel

/-- UNBLOCK reopens the two CLOSING tiles with their owner and the four BLOCKED ones. -/
theorem test_unblock :
    let s := run (.unblock 0 2 4 0 1) (run (.block 0 2 4 0 1) blocking)
    answer .C s = some (.done, .unblocked 6) ∧ tileAt 2 1 s = (.opened, 0, some .A, 1) ∧ s.closing = 0 ∧
    s.portC.attention = [.blockDone] := by decide +kernel

/-! ### Guard states and trips (sections 7.3 to 7.7, 8.10) -/

/-- Section 11.1, events 5 and 6. -/
theorem test_join :
    let s := run (.join .B 0 none 1) guarding
    answer .B (run (.join .B 0 none 0) guarding) = some (.staleGeometry, .empty) ∧
    answer .B s = some (.done, .joined (some 1) .offline) ∧ s.guardState .B = .arming := by decide +kernel

/-- An arm that holds a claim may not leave; one that holds none leaves. -/
theorem test_leave :
    answer .A (run (.leave .A 0 none) (holding .A 2 0 0 0 0 bothLive)) = some (.holding, .holdingSlot 2) ∧
    answer .A (run (.leave .A 0 none) bothLive) = some (.done, .left .live) ∧
    (run (.leave .A 0 none) bothLive).armA.guard.permit = false := by decide +kernel

/-- The state of section 8.10, before A's report. -/
def contact : State :=
  let b := run (nop .B (report 6 2900 900 0 0)) (holding .B 0 4 6 1 2 bothLive)
  waiting .C 1 2 3 3 3 (waiting .A 2 6 7 2 2
    (holding .C 0 4 5 3 3 (holding .A 1 3 3 2 3 (holding .A 0 1 3 1 2 b))))

/-- Section 8.10: A's trip with its trip claim, B's contact trip, the holds and the notices. -/
theorem test_trip :
    let s := run (nop .A (report 11 1650 1300 1000 300)) contact
    s.armA.guard.trip =
      some ⟨false, .foreign, some .tool, some ⟨4, 2⟩, some ⟨1450, 2150, 1100, 1548⟩, some 11, 0, some 1000, true, false, 4⟩ ∧
    s.armB.guard.trip =
      some ⟨false, .foreignContact, none, some ⟨4, 2⟩, some ⟨2700, 3100, 700, 1100⟩, some 6, 0, some 0, false, false, 4⟩ ∧
    (([2, 3, 4, 5, 6] : List (Fin 16)).map fun c => (tileAt c 2 s).2.2) =
      [(some .A, 2), (some .A, 3), (some .B, 1), (some .B, 2), (some .B, 2)] ∧
    s.portA.attention = [.cancelled 2 .trip, .tripped .foreign] ∧
    s.portC.attention = [.armTripped .A, .intrusion .A ⟨4, 3⟩] := by decide +kernel

/-- Section 8.10: the release of A's trip claim at rest frees one tile, and CLEAR_TRIP before it is refused HOLDING. -/
theorem test_clear_trip :
    let s := run (nop .A (report 11 1650 1300 1000 300)) contact
    let t := run (.release .A 0 (some (report 12 1900 1300 0 0)) 4) s
    answer .A (run (.clearTrip .A 0 none) s) = some (.holding, .holdingTiles 4) ∧
    answer .A t = some (.done, .released 4 .held 1) ∧
    answer .A (run (.clearTrip .A 0 none) t) = some (.done, .tripCleared (some .foreign)) := by decide +kernel

/-- An invalid record; an arm code that is neither A nor B. -/
theorem test_read_trip :
    answer .A (run (.readTrip .A 0 none none) bothLive) = some (.done, .trip none) ∧
    answer .C (run (.readTrip .C 0 none (some 2)) bothLive) = some (.badFrame, .empty) := by decide +kernel

/-- A LIVE arm is not evicted; an ARMING one is, its PENDING claim cancelled and its HELD one released. -/
theorem test_evict :
    let s := run (.evict 0 0)
      (waiting .A 1 5 5 0 0 (holding .B 0 5 5 0 0 (holding .A 0 0 1 0 0 (withArm .A .arming bothLive))))
    answer .C (run (.evict 0 1) bothLive) = some (.notTripped, .empty) ∧
    answer .C s = some (.done, .evicted .A .arming 2 2) ∧ s.guardState .A = .offline ∧
    s.portA.attention = [.cancelled 1 .evict, .evicted .arming] := by decide +kernel

/-- What READ_ARM gives of a LIVE arm with no report yet; an arm code that is neither A nor B. -/
theorem test_read_arm :
    answer .C (run (.readArm 0 0) bothLive) = some (.done, .arm ⟨.live, some 1, none, none, 0, none, 0⟩) ∧
    answer .C (run (.readArm 0 2) bothLive) = some (.badFrame, .empty) := by decide +kernel

/-! ### Modes, parameters and reset (chapter 9) -/

/-- From 255 the epoch goes to 1. -/
theorem test_start :
    answer .C (run (.start 0) { State.reset with epoch := 255 }) = some (.done, .started 1) := by decide +kernel

/-- STOP from GUARDING with two claims held, one waiting, and two CLOSING tiles. -/
theorem test_stop :
    let s := run (.stop 0) (run (.block 0 2 4 0 1) blocking)
    answer .C s = some (.done, .stopped .guarding 3 2) ∧ s.mode = .setup ∧ s.portC.attention = [.blockDone] ∧
    s.portA.attention = [.withdrawn 1 ⟨4, 0⟩, .stopped .guarding] := by decide +kernel

/-- HALT cancels A's and C's waiting claims and trips both arms. -/
theorem test_halt :
    answer .C (run (.halt 0) blocking) = some (.done, .halted 2 ⟨true, true, false⟩) := by decide +kernel

/-- Section 9.9, events 1 to 5. -/
theorem test_halt_line :
    let s := after .haltLineAssertion (waiting .B 1 0 0 0 0 (holding .A 0 0 0 0 0 bothLive))
    s.portC.attention = [.halted .line, .armTripped .B, .haltLine .guarding] ∧
    s.portB.attention = [.cancelled 1 .halt, .tripped .halt, .halted .line] ∧
    answer .C (run (.clearHalt 0) s) = some (.causeActive, .empty) ∧
    answer .C (run (.clearHalt 0) (after .haltLineRelease s)) = some (.done, .empty) := by decide +kernel

/-- A REPORT_PERIOD is rounded down to a multiple of 250 and then saturated (R56); TRIP_SCOPE 2 is PAIRED; identifier 11
is none. -/
theorem test_set_param :
    answer .C (run (.setParam 0 24 1100) State.reset) = some (.clamped, .param 24 1000) ∧
    answer .C (run (.setParam 0 24 100) State.reset) = some (.clamped, .param 24 250) ∧
    answer .C (run (.setParam 0 10 2) State.reset) = some (.clamped, .param 10 1) ∧
    answer .C (run (.setParam 0 11 0) State.reset) = some (.badParam, .empty) := by decide +kernel

/-- The defaults of NCOL and of WAIT_LIMIT. -/
theorem test_get_param :
    answer .C (run (.getParam 0 1) State.reset) = some (.done, .param 1 8) ∧
    answer .C (run (.getParam 0 5) State.reset) = some (.done, .param 5 2000) := by decide +kernel

/-- The part leaves reset with HALT_N low: HALT_LINE with detail SETUP, and START refused CAUSE_ACTIVE (R156). -/
theorem test_reset :
    let s := after .resetRelease (after .reset (after .haltLineAssertion bothLive))
    s.mode = .setup ∧ s.haltLevel = true ∧ s.portC.attention = [.haltLine .setup] ∧ s.portA.attention = [] ∧
    answer .C (run (.start 0) s) = some (.causeActive, .empty) := by decide +kernel

/-- The queue of commands: its front runs, and its rest waits. -/
theorem test_step :
    (match step { State.reset with pending := [.haltLineAssertion, .reset] } with
      | .next t => t.haltLevel && t.pending == [.reset]
      | _ => false) = true := by decide +kernel

/-! ### Witnesses: hypotheses that are met -/

/-- A state that has taken a request at its port, with a property. -/
abbrev Taken (p : Party) (c : Instr) (s : State) (P : State → Prop) : Prop :=
  (latch c s).taken p c = true ∧ P (latch c s)

/-- A frame for a command. -/
def frameOf (c : Instr) : Frame := (encodeFrame c).getD ⟨[], []⟩

theorem witness_StepRunsFrontCommand :
    ({ State.reset with pending := [.reset, .resetRelease] }).pending = Instr.reset :: [.resetRelease] := rfl

/-- A report section due at arm A's port, at both, and at arm B's alone; none after it was taken, and none of a request
without a report. The timer of arm A due, that of arm B alone, nothing due, and a waiting claim: at WAIT_LIMIT, 1 microsecond before it
with its yield asked, at YIELD_PATIENCE, 1 microsecond before it, and at any age with WAIT_LIMIT 0; and a claim that is
due behind one that is not. -/
theorem witness_IdleStep :
    let a := withArm .A .arming guarding
    let b := withArm .B .arming guarding
    let due := a.setMonitor .A ⟨none, none, 0, some 0⟩
    let dueB := b.setMonitor .B ⟨none, none, 0, some 0⟩
    let aged := fun (age : Nat) (asked : Bool) =>
      (waiting .C 0 0 0 0 0 guarding).setSlot .C 0 (.pending ⟨0, 0, 0, 0⟩ ⟨1, age, asked⟩ none)
    let behind := (waiting .B 0 0 0 0 0 (aged 0 false)).setSlot .B 0 (.pending ⟨0, 0, 0, 0⟩ ⟨2, 500000, false⟩ none)
    let a1 := latch (nop .A (report 1 0 0 0 0)) bothLive
    let b1 := latch (nop .B (report 2 0 0 0 0)) bothLive
    let ab := latch (nop .B (report 2 0 0 0 0)) a1
    (a1.pending = [] ∧ a1.SectionDue .A (report 1 0 0 0 0)) ∧ ab.SectionDue .A (report 1 0 0 0 0) ∧
    (b1.SectionDue .B (report 2 0 0 0 0) ∧ ∀ r, ¬b1.SectionDue .A r) ∧ (∀ x r, ¬(idled a1).SectionDue x r) ∧
    (∀ x r, ¬(latch (.leave .A 0 none) bothLive).SectionDue x r) ∧ (∀ x r, ¬due.SectionDue x r) ∧
    let facts := fun s : State => (s.pending, s.armA.monitor.timer == some 0, s.armB.monitor.timer == some 0,
      s.waiters.map fun w =>
        (decide (0 < s.params.waitLimit ∧ s.params.waitLimit * 1000 ≤ w.wait.age),
          decide (s.params.yieldPatience * 1000 ≤ w.wait.age ∧ w.wait.asked = false)))
    (due.pending = [] ∧ (due.arm .A).monitor.timer = some 0) ∧
    (dueB.pending = [] ∧ (dueB.arm .A).monitor.timer ≠ some 0 ∧ (dueB.arm .B).monitor.timer = some 0) ∧
    facts (aged 2000000 true) = ([], false, false, [(true, false)]) ∧
    facts (aged 1999999 true) = ([], false, false, [(false, false)]) ∧
    facts (aged 500000 false) = ([], false, false, [(false, true)]) ∧
    facts (aged 499999 false) = ([], false, false, [(false, false)]) ∧
    facts { aged 2000000 true with params := { Params.initial with waitLimit := 0 } } =
      ([], false, false, [(false, false)]) ∧
    facts behind = ([], false, false, [(false, false), (false, true)]) ∧ facts a = ([], false, false, []) := by
  have none_ : ∀ (s : State) (x : Arm), s.reportDue x = none → ∀ r, ¬s.SectionDue x r := fun s x h r => by
    simp [State.sectionDue_iff, h]
  have nones : ∀ s : State, s.reportDue .A = none → s.reportDue .B = none → ∀ x r, ¬s.SectionDue x r :=
    fun s h h' x => by cases x <;> exact none_ s _ ‹_›
  dsimp only
  refine ⟨⟨rfl, (State.sectionDue_iff ..).2 (by decide +kernel)⟩, (State.sectionDue_iff ..).2 (by decide +kernel),
    ⟨(State.sectionDue_iff ..).2 (by decide +kernel), none_ _ _ (by decide +kernel)⟩,
    nones _ (by decide +kernel) (by decide +kernel), nones _ (by decide +kernel) (by decide +kernel),
    nones _ (by decide +kernel) (by decide +kernel), ?_⟩
  and_intros <;> decide +kernel

/-- A part held in reset, with HALT_N high and with HALT_N low. -/
theorem witness_ResetAndItsRelease :
    ((after .reset bothLive).held = true ∧ (after .reset bothLive).mode = .setup) ∧
    (after .haltLineAssertion (after .reset bothLive)).haltPinLow = true := by decide +kernel

/-- The three modes, both levels, and the epochs at the two ends of R150. -/
theorem witness_StartAndClearHalt :
    let halted := { guarding with mode := .halted }
    (Taken .C (.start 0) guarding fun s => s.mode ≠ .setup) ∧
    (Taken .C (.start 0) { State.reset with haltLevel := true } fun s => s.mode = .setup ∧ s.haltLevel = true) ∧
    (Taken .C (.start 0) State.reset fun s => s.mode = .setup ∧ s.haltLevel = false ∧ s.epoch.toNat = 0) ∧
    (Taken .C (.start 15) { State.reset with epoch := 255 } fun s => s.haltLevel = false ∧ s.epoch.toNat = 255) ∧
    (Taken .C (.clearHalt 15) guarding fun s => s.mode ≠ .halted) ∧
    (Taken .C (.clearHalt 15) { halted with haltLevel := true } fun s => s.mode = .halted ∧ s.haltLevel = true) ∧
    (Taken .C (.clearHalt 15) halted fun s => s.mode = .halted ∧ s.haltLevel = false) := by decide +kernel

theorem witness_StopReturnsToSetup :
    (Taken .C (.stop 3) State.reset fun s => s.mode = .setup) ∧
    (Taken .C (.stop 3) bothLive fun s => s.mode ≠ .setup) := by decide +kernel

/-- A lawful state in GUARDING: arm A ARMING with a claim HELD, and party C waiting for its tiles. -/
def lawful : State :=
  run (.claim .C 0 none 0 1 0 0) (run (.claim .A 0 none 0 0 0 0) (run (.join .A 0 none 1) (run (.start 0) State.reset)))

/-- Every law of the device holds of it. -/
theorem lawful_lawful : lawful.Lawful := State.lawful_of_check (by decide +kernel)

/-- A state with a tool of each arm at rest, both arms with a PENDING claim. -/
def facing (xA yA xB yB : Int) (s : State) : State :=
  let t := s.setEvaluation .A (s.evaluate .A (report 1 xA yA 0 0) 0)
  waiting .B 3 7 7 3 3 (waiting .A 3 7 7 3 3 (t.setEvaluation .B (t.evaluate .B (report 2 xB yB 0 0) 0)))

/-- A HALT on a lawful state with arm A ARMING and a claim waiting; one of a LIVE arm A over a tile of C, with no tile of C
under arm B; and one of two ARMING arms over the free tile (4, 1), which A takes, with arm B over a tile of C as well: B
takes none, its record is contested, and ARM_TRIPPED and INTRUSION name B. -/
theorem witness_HaltStopsTheCell :
    (latch (.halt 0) lawful).QueueLaw ∧ (latch (.halt 0) lawful).mode = .guarding ∧
    (latch (.halt 0) lawful).taken .C (.halt 0) = true ∧ (latch (.halt 0) lawful).held = false ∧
    (latch (.halt 0) lawful).queue ≠ [] ∧ (latch (.halt 0) lawful).trippable .A = true ∧
    (latch (.halt 0) lawful).trippable .B = false ∧
    (let s := { holding .C 0 0 0 0 0 bothLive with portC := (latch (.halt 0) bothLive).portC }
     let t := s.setEvaluation .A (s.evaluate .A (report 1 100 100 0 0) 0)
     t.trippable .A = true ∧ IsFirst (t.IntrudedAt .A) ⟨0, 0⟩ ∧ ¬∃ w, t.IntrudedAt .B w) ∧
    (let arming := holding .C 0 5 5 1 1 (withArm .B .arming (withArm .A .arming guarding))
     let s := { facing 1900 750 2450 750 arming with portC := (latch (.halt 0) bothLive).portC }
     let u := after (.halt 0) s
     s.QueueLaw ∧ s.mode = .guarding ∧ s.taken .C (.halt 0) = true ∧ s.trippable .A = true ∧ s.trippable .B = true ∧
     allTiles.filter (s.touches .A) = [⟨3, 1⟩, ⟨4, 1⟩] ∧ allTiles.filter (s.touches .B) = [⟨4, 1⟩, ⟨5, 1⟩] ∧
     IsFirst (s.IntrudedAt .B) ⟨5, 1⟩ ∧ (s.tile ⟨4, 1⟩).owner = none ∧ (s.tile ⟨4, 1⟩).service = .opened ∧
     u.tripTiles .A = [⟨3, 1⟩, ⟨4, 1⟩] ∧ u.tripTiles .B = [] ∧ tileAt 4 1 u = (.opened, 0, some .A, 1) ∧
     u.armA.guard.trip.map (fun r => (r.contested, r.tileCount)) = some (false, 2) ∧
     u.armB.guard.trip.map (fun r => (r.contested, r.tileCount)) = some (true, 0) ∧
     u.portC.attention = [.halted .request, .armTripped .B, .intrusion .B ⟨5, 1⟩]) := by
  simp only [State.QueueLaw, IsFirst, Party.forall_iff, Tile.forall_iff, Tile.exists_iff]
  and_intros <;> decide +kernel

theorem witness_HaltLineOutsideGuarding :
    (State.reset.held = false ∧ State.reset.mode ≠ .guarding) ∧ (after .reset bothLive).held = true := by decide +kernel

/-- A BLOCK in SETUP, a CLAIM in HALTED with a report, a RELEASE in SETUP. -/
theorem witness_WrongModeComesFirst :
    let claim : Instr := .claim .A 1 (some (report 1 0 0 0 0)) 0 0 0 0
    (Taken .C (.block 0 9 9 9 9) State.reset fun s => takenIn (.block 0 9 9 9 9) s.mode = false) ∧
    (claim.request.map (fun q => q.port) = some .A ∧
      Taken .A claim { bothLive with mode := .halted } fun s => takenIn claim s.mode = false) ∧
    (Taken .C (.release .C 0 none 0) State.reset fun s => takenIn (.release .C 0 none 0) s.mode = false) := by
  decide +kernel

/-- SET_PARAM outside SETUP, of an unknown identifier at each end of the known ones, at and beyond a range's ends, and
of a REPORT_PERIOD; GET_PARAM of a known and of an unknown identifier. -/
theorem witness_SetParamAndGetParam :
    (Taken .C (.setParam 0 1 8) guarding fun s => s.mode ≠ .setup) ∧
    ((Taken .C (.setParam 0 0 8) State.reset fun s => s.mode = .setup) ∧ paramRange 0 = none ∧
      paramRange 11 = none ∧ paramRange 16 = none ∧ paramRange 26 = none ∧ paramRange 32 = none ∧ paramRange 42 = none) ∧
    ((Taken .C (.setParam 0 1 17) State.reset fun s => s.mode = .setup) ∧ paramRange 1 = some (2, 16)) ∧
    ((Taken .C (.setParam 0 40 65535) State.reset fun s => s.mode = .setup) ∧ paramRange 40 = some (250, 4000)) ∧
    (latch (.getParam 0 41) State.reset).taken .C (.getParam 0 41) = true ∧
    (latch (.getParam 0 255) State.reset).taken .C (.getParam 0 255) = true := by decide +kernel

/-- A request whose report section has not been taken, and one whose report section an idle step has taken. -/
theorem witness_EveryTakenRequestIsAnswered :
    let c : Instr := .join .B 7 (some (report 1 0 0 0 0)) 1
    let s := latch c guarding
    c.request = some ⟨.B, 7, some (report 1 0 0 0 0), 16, [1]⟩ ∧
    (s.taken .B c = true ∧ (s.port .B).reported = false) ∧
    (idled s).taken .B c = true ∧ ((idled s).port .B).reported = true := by
  decide +kernel

theorem witness_EventsThatCannotHappen :
    ((Instr.start 0).request = some ⟨.C, 0, none, 66, []⟩ ∧ State.reset.taken .C (.start 0) = false) ∧
    State.reset.portA.processing = none ∧
    (State.reset.held = false ∧ ((latch (.stop 0) State.reset).port .C).processing.isSome = true) ∧
    State.reset.armA.monitor.timer = none ∧ (State.reset.slot .A 0).state ≠ .pending := by decide +kernel

theorem witness_ExchangeEndTakesTheRequest :
    (State.reset.portB.processing = none ∧ State.reset.held = false) ∧
    ((after .reset bothLive).portB.processing = none ∧ (after .reset bothLive).held = true) := by decide +kernel

theorem witness_OverrunAnswersNotReady :
    (latch (.leave .A 5 none) bothLive).portA.processing = some ⟨[17, 5, 0, 20], []⟩ := by decide +kernel

/-- A frame for each clause of the frame checks: the bits of an unfinished byte, three bytes, a body length of 61 and one
byte short of its length, a wrong check byte, a kind of another port, a report at the Cell Port, of three probes and
beyond its body, and a JOIN without its epoch. -/
theorem witness_FrameChecksRefuse :
    let with_ := fun (p : Party) (f : Frame) => State.reset.setPort p { State.reset.port p with processing := some f }
    (∀ f ∈ [⟨[1, 0, 0, 1], [true]⟩, ⟨[1, 0, 0], []⟩, ⟨[1, 0, 61, 60], []⟩, ⟨[1, 0, 1, 0], []⟩, ⟨[1, 0, 0, 0], []⟩,
        ⟨[64, 0, 0, 64], []⟩, ⟨[1, 128, 0, 129], []⟩, ⟨[1, 128, 1, 3, 131], []⟩, ⟨[1, 128, 1, 1, 129], []⟩,
        ⟨[16, 0, 0, 16], []⟩],
      ((with_ .A f).port .A).processing = some f) ∧
    xorAll ([1, 0, 0, 0] : List Byte) ≠ 0 ∧
    (xorAll ([64, 0, 0, 64] : List Byte) = 0 ∧ kindAccepted .A 64 = false) ∧
    (xorAll ([1, 128, 0, 129] : List Byte) = 0 ∧ kindAccepted .A 1 = true ∧ (128 : Byte).getLsbD 7 = true) ∧
    (xorAll ([1, 128, 1, 3, 131] : List Byte) = 0 ∧ 2 < (3 : Byte).toNat % 16) ∧
    xorAll ([1, 128, 1, 1, 129] : List Byte) = 0 ∧
    (xorAll ([16, 0, 0, 16] : List Byte) = 0 ∧ kindAccepted .A 16 = true ∧ splitReport .A 0 [] = some (none, []) ∧
      commandOf .A 16 0 none [] = none) := by decide +kernel

/-- The shortest and the longest request. -/
theorem witness_DecodeOfEncodedFrame :
    ((Instr.nop .A 0 none).wf = true ∧ (Instr.nop .A 0 none).request.isSome = true) ∧
    ((Instr.writeRow 15 255 0 (List.replicate 58 9)).wf = true ∧
      (Instr.writeRow 15 255 0 (List.replicate 58 9)).request.isSome = true) := by decide

theorem witness_AcceptedFrameSpellsItsRequest :
    decodeFrame .A ⟨[0x20, 0x05, 0x04, 0x00, 0x02, 0x00, 0x01, 0x22, 0xff], []⟩ = .accepted (.claim .A 5 none 0 2 0 1) := by
  decide

/-- The first byte, the tag byte and the check byte of a frame. -/
theorem witness_CorruptedByteIsRefused :
    decodeFrame .A ⟨[0x11, 0x00, 0x00, 0x11], []⟩ = .accepted (.leave .A 0 none) ∧
    ∀ i ∈ [0, 1, 3], i < (0 : Byte).toNat + 4 ∧ i ≠ 2 ∧
      (0x12 : Byte) ≠ ([0x11, 0x00, 0x00, 0x11] : List Byte).getD i 0 := by decide

/-- The reply of the Cell Port after reset, and the reply to a NOP with tag 4 of an arm that is LIVE with clean count 4,
slot 0 HELD and GRANTED in slot 0 present, written out from R166. The payloads of READ_ROW, of which the first tile is free
and the second is A's, and of GET_PARAM of VMAX (A), 2,500 (09C4); a set of parties, A and C; and an envelope end of −600
(FFFFFDA8). -/
theorem witness_ReplyFraming :
    (State.reset.replyBody .C 0 0 ⟨.done, false, .empty⟩).bytes.length + 3 = 19 ∧
    (run (.nop .A 4 none) (holding .A 0 0 0 0 0 (bothLive.raise .A (.granted 0)))).portA.reply.bytes =
      [0, 24, 4, 1, 0, 0, 1, 1, 2, 1, 4, 0, 2, 0, 0, 0, 0, 1, 1, 0, 0, 0, 0, 24] ∧
    ((run (.readRow .C 5 none 0) (holding .A 0 1 1 0 0 bothLive)).portC.reply.bytes.drop 19).take 8 =
      [0, 0, 3, 0, 0, 0, 0, 1] ∧
    ((run (.getParam 5 21) State.reset).portC.reply.bytes.drop 17).take 4 = [3, 21, 0x09, 0xc4] ∧
    (Payload.claimQueued 2 ⟨1, 3, 0, 2⟩ ⟨true, false, true⟩).bytes = [2, 1, 3, 0, 2, 5] ∧
    bytes4 (-600) = [0xff, 0xff, 0xfd, 0xa8] := by decide +kernel

/-- A set whose law holds, with two kinds listed out of order. -/
theorem witness_AckRemovesListedKinds :
    let c : Instr := .ack .B 2 none [255, 12, 0, 1]
    let s := latch c ((bothLive.raise .B .portFault).raise .B (.granted 1))
    s.taken .B c = true ∧ s.AttentionLaw .B ∧ (s.port .B).attention = [.granted 1, .portFault] := by decide +kernel

/-- A NOP without a report, and one for each outcome of the tests of R44: no probe, a first record of kind 2, an ELBOW
missing, a repeated count, and a fresh report; and a RELEASE, a JOIN and an ACK that carry a fresh report. -/
theorem witness_NopTestsItsReport :
    let elbow := { bothLive with params := { Params.initial with armA := { ArmParams.initial with elbowRadius := 1 } } }
    let known := bothLive.setMonitor .A ⟨none, some 15, 0, some 1000⟩
    let takes := fun (s : State) (rep : Option Report) (P : State → Prop) => Taken .A (.nop .A 0 rep) s P
    (takes bothLive none fun _ => True) ∧ (takes bothLive (some ⟨15, []⟩) fun _ => True) ∧
    (takes bothLive (some ⟨15, [probe 2 0 0 0 0]⟩) fun _ => (probe 2 0 0 0 0).kind ≠ 1) ∧
    (takes elbow (some (report 15 0 0 0 0)) fun s => (probe 1 0 0 0 0).kind = 1 ∧
      0 < (s.params.arm .A).elbowRadius ∧ (report 15 0 0 0 0).probes[1]? = none) ∧
    (takes known (some (report 15 0 0 0 0)) fun s =>
      s.params.armA.elbowRadius = 0 ∧ (s.arm .A).monitor.lastCount = some (report 15 0 0 0 0).count) ∧
    (takes known (some (report 0 0 0 0 0)) fun s =>
      s.params.armA.elbowRadius = 0 ∧ (s.arm .A).monitor.lastCount ≠ some (report 0 0 0 0 0).count) ∧
    (∀ c ∈ [Instr.release .A 0 (some (report 0 0 0 0 0)) 0, .join .A 0 (some (report 0 0 0 0 0)) 1,
        .ack .A 0 (some (report 0 0 0 0 0)) []],
      Taken .A c known fun s => (s.arm .A).monitor.lastCount ≠ some (report 0 0 0 0 0).count) ∧
    (let c := nop .A (report 0 0 0 0 0)
     ((latch c known).port .A).reported = false ∧ (idled (latch c known)).taken .A c = true ∧
     ((idled (latch c known)).port .A).reported = true) := by
  decide +kernel

/-- An arm with a DRAINING source over columns 0..2 and its target over columns 2..4, of rows 0..1. -/
def drains (g : GuardState) : State :=
  ((holding .A 1 2 4 0 1 (holding .A 0 0 2 0 1 (withArm .A g guarding))).setSlot .A 0 (.draining ⟨0, 2, 0, 1⟩ 1)).setSlot
    .A 1 (.held ⟨2, 4, 0, 1⟩ (some 0))

/-- The result of a report's evaluation and the drain tiles that it covers. -/
def drainTest (s : State) (rep : Report) (m : Nat) : Option (Option Cause × List (Nat × Nat)) :=
  (s.evaluate .A rep m).map fun e =>
    (e.result,
      (allTiles.filter fun t => (⟨0, 2, 0, 1⟩ : Rect).contains t && !(⟨2, 4, 0, 1⟩ : Rect).contains t && e.covers t).map
        fun t => (t.col.val, t.row.val))

/-- An OFFLINE arm and a joined one; an ARMING arm whose clean report is the last of its run, is one of it, and is too
fast; ARMING, LIVE and TRIPPED arms with a source that drains: a CLEAR cover that touches
no drain tile, one that touches the last of them, a breach that touches none and OVERSPEED; and an arm that has no source.
With these the source is released, with SHIFT_DONE of slot 1, or stays. -/
theorem witness_FreshReportIsStoredAndEvaluated :
    let reports := [report 1 1800 300 0 0, report 1 1100 300 0 0, report 1 2400 300 200 0, report 1 1800 300 2501 0]
    let left := fun (g : GuardState) (rep : Report) =>
      let t := (drains g).freshReport .A rep
      ((t.slot .A 0).state, (t.port .A).attention.contains (.shiftDone 1))
    let run_ := fun (n : Nat) (vy : Int) =>
      let g := (((withArm .A .arming guarding).setGuard .A ⟨.arming, false, n, some 1, none⟩).freshReport .A
        (report 9 (-900) 1000 0 vy)).armA.guard
      (g.state, g.permit, g.clean)
    run_ 3 50 = (.live, true, 4) ∧ run_ 2 50 = (.arming, false, 3) ∧ run_ 3 51 = (.arming, false, 0) ∧
    State.reset.guardState .A = .offline ∧ bothLive.guardState .A ≠ .offline ∧
    (report 1 1800 300 0 0).probes = probe 1 1800 300 0 0 :: [] ∧ (bothLive.slot .A 0).state = .empty ∧
    (∀ g ∈ [GuardState.arming, .live, .tripped],
      (drains g).slot .A 0 = .draining ⟨0, 2, 0, 1⟩ 1 ∧ ((drains g).slot .A 1).heldRect = some ⟨2, 4, 0, 1⟩ ∧
      (reports.map fun rep => drainTest (drains g) rep 0) =
        [some (none, []), some (none, [(1, 0), (1, 1)]), some (some .unclaimed, []), some (some .overspeed, [])] ∧
      reports.map (left g) = [(.empty, true), (.draining, false), (.empty, true), (.draining, false)]) := by
  dsimp only
  and_intros <;> decide +kernel

/-- A LIVE arm at rest on its home side, with a missed count. -/
def atHome (missed : Nat) : State :=
  bothLive.setMonitor .A ⟨some (report 6 (-900) 1000 0 0), some 6, missed, some 0⟩

/-- An expiry in ARMING without a report; in LIVE below STALE_LIMIT, at it, and held above it; in LIVE with a breach and
with a CLEAR result, of the last missed count that is evaluated; in TRIPPED with a breach, with a CLEAR result and held;
and a source that drains at an expiry of each guard state and at the stale evaluation, and one that does not. -/
theorem witness_ReportPeriodExpiry :
    let arming := withArm .A .arming guarding
    let last := fun (g : GuardState) (rep : Report) (missed : Nat) =>
      (drains g).setMonitor .A ⟨some rep, some 6, missed, some 0⟩
    let clear := report 6 1800 300 0 0
    let near := report 6 1100 300 0 0
    let breach := report 6 2400 300 200 0
    let left := fun s : State =>
      let t := after (.reportPeriodExpiry .A) s
      (t.guardState .A, (t.slot .A 0).state, (t.port .A).attention.contains (.shiftDone 1))
    ((arming.arm .A).monitor.timer = some 1000 ∧ (arming.arm .A).monitor.lastReport = none) ∧
    ((atHome 2).armA.monitor, (atHome 2).params.armA.staleLimit, (atHome 2).guardState .A) =
      (⟨some (report 6 (-900) 1000 0 0), some 6, 2, some 0⟩, 3, .live) ∧
    (∀ g ∈ [GuardState.arming, .live, .tripped],
      ([clear, near, breach].map fun rep => drainTest (last g rep 2) rep 3) =
        [some (none, []), some (none, [(1, 0), (1, 1)]), some (some .unclaimed, [])]) ∧
    ([clear, near].map fun rep => left (last .arming rep 2)) = [(.arming, .empty, true), (.arming, .draining, false)] ∧
    left (last .arming clear 3) = (.arming, .draining, false) ∧
    ([clear, near, breach].map fun rep => left (last .live rep 2)) =
      [(.live, .empty, true), (.live, .draining, false), (.tripped, .empty, true)] ∧
    ([clear, near].map fun rep => left (last .live rep 3)) = [(.tripped, .empty, true), (.tripped, .draining, false)] ∧
    left (last .live clear 4) = (.live, .draining, false) ∧
    ([clear, breach].map fun rep => left (last .tripped rep 2)) = [(.tripped, .empty, true), (.tripped, .empty, true)] ∧
    left (last .tripped breach 3) = (.tripped, .draining, false) := by
  dsimp only
  and_intros <;> decide +kernel

theorem witness_StopDistanceAndInflation : 0 < ArmParams.initial.decel ∧ 0 < 5 := by decide

/-- Lawful parameters, the greatest radius, missed count and speed. -/
theorem witness_EnvelopeIntervals :
    Params.initial.Law ∧ (4 : Nat) ≤ (Params.initial.arm .B).staleLimit + 1 ∧
    (probe 1 32767 (-32768) 2500 (-2500)).speed ≤ (Params.initial.arm .B).vmax := by decide

theorem witness_CoverIsTheTilesMet :
    0 < Params.initial.pitch ∧ 0 < Params.initial.ncol ∧ 0 < Params.initial.nrow := by decide

/-! ### Witnesses: evaluations and trips -/

/-- One tile's record changed. -/
def withTile (c : Fin 16) (r : Fin 8) (f : TileRecord → TileRecord) (s : State) : State :=
  { s with tiles := s.tiles.update fun t q => if t = ⟨c, r⟩ then f q else q }

/-- The envelope of arm A's tool at rest at a place. -/
def restAt (x y : Int) : Envelope := Params.initial.envelope ArmParams.initial 150 0 (probe 1 x y 0 0)

/-- At (2,000, 1,000) the envelope covers columns 3..4 by rows 1..2: the far side, a tile of B, a BLOCKED tile, an
unclaimed tile, a tile of class 3 at a speed one above its limit, and none of these at the limit. -/
theorem witness_ProbeResultByPriority :
    let e := restAt 2000 1000
    let owned := holding .A 0 3 4 1 2 bothLive
    let b := holding .B 0 4 4 1 2 bothLive
    let blocked := withTile 4 2 (fun q => { q with service := .blocked, owner := none, hold := 0 }) owned
    let slow := withTile 4 2 (fun q => { q with speedClass := 3 }) owned
    (restAt 3800 1000).east = true ∧ (restAt 200 1000).west = false ∧ (restAt 199 1000).west = true ∧
    (e.east = false ∧ IsFirst (fun t => e.covers t = true ∧ ∃ p, (b.tile t).owner = some p ∧ p ≠ Arm.A.party) ⟨4, 1⟩) ∧
    ((¬∃ t, e.covers t = true ∧ ∃ p, (blocked.tile t).owner = some p ∧ p ≠ Arm.A.party) ∧
      IsFirst (fun t => e.covers t = true ∧ (blocked.tile t).owner = none ∧ (blocked.tile t).service = .blocked) ⟨4, 2⟩) ∧
    IsFirst (fun t => e.covers t = true ∧ (bothLive.tile t).owner = none ∧ (bothLive.tile t).service ≠ .blocked) ⟨3, 1⟩ ∧
    ((¬∃ t, e.covers t = true ∧ (slow.tile t).owner = none) ∧
      IsFirst (fun t => e.covers t = true ∧ (slow.tile t).speedClass = 3 ∧ slow.params.zoneLimit3 < 101) ⟨4, 2⟩) ∧
    ¬∃ t, e.covers t = true ∧ (owned.tile t).speedClass ≠ 0 := by
  simp only [IsFirst, Tile.forall_iff, Tile.exists_iff, Party.exists_iff]
  and_intros <;> decide +kernel

/-- ELBOW_RADIUS 200 for arm A (section 2.9.6). -/
def withElbow (s : State) : State :=
  { s with params := { s.params with armA := { s.params.armA with elbowRadius := 200 } } }

/-- Speeds at VMAX, a CLEAR evaluation, a breach of the TOOL, and the breach of the ELBOW of section 2.9.6. -/
theorem witness_EvaluationResult :
    let s := withElbow (wide (holding .C 0 0 1 5 5 (withTile 6 2 (fun q => { q with speedClass := 2 })
      (holding .A 0 3 7 0 2 bothLive))))
    let tool := probe 1 2345 1210 1500 (-400)
    let elbow := probe 2 1100 2600 300 200
    (probe 1 0 0 2500 (-2500)).speed ≤ (s.params.arm .A).vmax ∧ elbow.speed ≤ (s.params.arm .A).vmax ∧
    (s.evaluateProbes .A 1 0 (probe 1 (-900) 0 0 0) none).result = none ∧
    (s.evaluateProbes .A 1 0 tool none).result = some .zoneSpeed ∧
    (let e := s.evaluateProbes .A 1 0 tool (some elbow)
     (e.result, e.kind, e.tile, e.foreign) = (some .foreign, some .elbow, some ⟨1, 5⟩, ⟨false, false, true⟩)) := by
  decide +kernel

/-- A component one above VMAX, of the TOOL and of the ELBOW alone, with and without a record before; and section 2.9.7. -/
theorem witness_OverspeedKeepsTheEnvelope :
    let s := holding .A 0 3 7 0 2 (wide bothLive)
    let t := run (nop .A (report 1 2345 1210 1500 (-400))) s
    let u := run (nop .A (report 2 2345 1210 2600 (-400))) t
    2500 < (probe 1 0 0 2501 0).svx.natAbs ∧ 2500 < (probe 2 0 0 0 (-2501)).svy.natAbs ∧
    ¬(2500 < (probe 1 0 0 2500 0).svx.natAbs) ∧ (s.arm .A).evaluation = none ∧ (t.arm .A).evaluation.isSome = true ∧
    State.reset.guardState .A = .offline ∧ bothLive.guardState .A = .live ∧
    (withArm .A .tripped guarding).guardState .A = .tripped ∧
    (report 1 0 0 2501 0).evaluated ArmParams.initial = some (probe 1 0 0 2501 0, none) ∧
    (u.armA.evaluation.map fun e => (e.result, e.retained, e.tool.speed, e.tool.envelope)) =
      some (some .overspeed, true, 2600, some ⟨2145, 3145, 938, 1410, some (4, 6), (1, 2), false, false⟩) ∧
    (let e := (withElbow s).evaluateProbes .A 3 0 (probe 1 0 0 (-300) 40) (some (probe 2 0 0 7 (-2501)))
     (e.tool.speed, e.elbow.map fun b => b.speed, e.kind) = (300, some 2501, some .elbow)) := by
  decide +kernel

/-- An ARMING arm one report short of its run with the probe speed at CREEP, one at 0, and one whose probe is faster. -/
theorem witness_CleanRunGivesThePermit :
    let at_ := fun n => (withArm .A .arming guarding).setGuard .A ⟨.arming, false, n, some 1, none⟩
    let fresh := fun (s : State) (rep : Report) (P : State → Prop) =>
      Taken .A (nop .A rep) s fun t => t.guardState .A = .arming ∧ (t.port .A).reported = false ∧
        reportOutcome rep (t.params.arm .A).elbowRadius (t.arm .A).monitor.lastCount = .fresh ∧ P t
    (fresh (at_ 3) (report 9 (-900) 1000 0 50) fun s => s.params.armA.rearmCount ≤ s.armA.guard.clean + 1 ∧
      (s.evaluate .A (report 9 (-900) 1000 0 50) 0).map (fun e => (e.result, e.tool.speed)) = some (none, 50)) ∧
    (fresh (at_ 0) (report 9 (-900) 1000 0 0) fun s => s.armA.guard.clean + 1 < s.params.armA.rearmCount ∧
      (s.evaluate .A (report 9 (-900) 1000 0 0) 0).map (fun e => (e.result, e.tool.speed)) = some (none, 0)) ∧
    (fresh (at_ 3) (report 9 (-900) 1000 0 51) fun s => s.params.armA.creep < 51) := by decide +kernel

/-- A LIVE arm on a CLEAR report and on a breach, and a TRIPPED arm on a breach; and a LIVE arm with a PENDING claim in a
state whose queue's law holds, whose breach covers a tile of C, under LOCAL scope. -/
theorem witness_BreachTripsALiveArm :
    let fresh := fun (s : State) (rep : Report) (P : State → Prop) =>
      Taken .A (nop .A rep) s fun t => (t.port .A).reported = false ∧
        reportOutcome rep (t.params.arm .A).elbowRadius (t.arm .A).monitor.lastCount = .fresh ∧ P t
    (fresh bothLive (report 1 (-900) 0 0 0) fun s => s.guardState .A = .live ∧
      (s.evaluate .A (report 1 (-900) 0 0 0) 0).map (fun e => e.result) = some none) ∧
    (fresh bothLive (report 1 100 0 0 0) fun s => s.guardState .A = .live ∧
      (s.evaluate .A (report 1 100 0 0 0) 0).map (fun e => e.result) = some (some .unclaimed)) ∧
    (fresh (withArm .A .tripped guarding) (report 1 100 0 0 0) fun s => s.guardState .A = .tripped ∧
      (s.evaluate .A (report 1 100 0 0 0) 0).isSome = true) ∧
    (fresh (waiting .A 3 7 7 3 3 (holding .C 0 0 0 0 0 bothLive)) (report 1 100 0 0 0) fun s =>
      s.QueueLaw ∧ (s.slot .A 3).state = .pending ∧
      (s.evaluate .A (report 1 100 0 0 0) 0).map (fun e => e.result) = some (some .foreign) ∧
      IsFirst (fun z => (restAt 100 0).covers z = true ∧ (s.tile z).owner = some .C) ⟨0, 0⟩ ∧
      s.params.tripScope = .local_) := by
  simp only [Taken, State.QueueLaw, IsFirst, Party.forall_iff, Tile.forall_iff]
  and_intros <;> decide +kernel

/-- An envelope over a tile of the arm, a free one and one of B, with a valid record. -/
theorem witness_TripClaimTakesTheCover :
    let s := (holding .B 0 4 4 2 2 (holding .A 0 3 3 1 1 bothLive)).setEvaluation .A
      (bothLive.evaluate .A (report 1 2000 1000 0 0) 0)
    let u := s.setGuard .A ⟨.tripped, false, 0, some 1, some (s.tripRecord .A .unclaimed true none)⟩
    (u.touches .A ⟨3, 1⟩ = true ∧ (u.tile ⟨3, 1⟩).owner = some Arm.A.party) ∧
    (u.touches .A ⟨4, 1⟩ = true ∧ (u.tile ⟨4, 1⟩).owner = none ∧ (u.tile ⟨4, 1⟩).service = .opened) ∧
    (u.touches .A ⟨4, 2⟩ = true ∧ (u.tile ⟨4, 2⟩).owner = some .B) ∧ (u.arm .A).guard.trip.isSome = true := by
  decide +kernel

/-- What a trip of arm A is to spread by: whether arm B is to trip, the far-side flag, a tile of B among the foreign
owners, the scope, and the first tile of C under each arm. -/
def spread (s : State) : Bool × Bool × Bool × TripScope × Option Tile × Option Tile :=
  (s.trippable .B, (s.arm .A).evaluation.any (fun e => e.farSide .A),
    (s.arm .A).evaluation.any (fun e => e.foreign.has .B), s.params.tripScope, s.intruded .A, s.intruded .B)

/-- The other arm LIVE and a far-side excursion, a tile of the other arm, and neither under each scope; the other arm
OFFLINE; and a tile of C under both arms, under one of them, and under none, with the notice that a trip then leaves. The
queue's law holds of these, and each arm has a PENDING claim. -/
theorem witness_TripSpread :
    let paired := fun s : State => { s with params := { s.params with tripScope := .paired } }
    let c := holding .C 0 4 4 1 1 (holding .C 1 7 7 1 1 bothLive)
    let b := holding .B 0 3 3 1 1 c
    let notices := fun s : State =>
      ((s.tripOwn .A .stale).port .C).attention.filter fun n => n.code == 15
    (facing 1000 1000 3000 1000 bothLive).QueueLaw ∧
    ((facing 1000 1000 3000 1000 bothLive).slot .A 3).state = .pending ∧
    ((facing 1000 1000 3000 1000 bothLive).slot .B 3).state = .pending ∧
    spread (facing 3900 1000 3800 1000 c) = (true, true, false, .local_, some ⟨7, 1⟩, some ⟨7, 1⟩) ∧
    spread (facing 2000 1000 3800 1000 b) = (true, false, true, .local_, some ⟨4, 1⟩, some ⟨7, 1⟩) ∧
    IsFirst (fun z => (facing 2000 1000 3800 1000 b).touches .A z = true ∧
      ((facing 2000 1000 3800 1000 b).tile z).owner = some Arm.A.other.party) ⟨3, 1⟩ ∧
    notices (facing 2000 1000 3800 1000 b) = [.intrusion .A ⟨4, 1⟩] ∧
    spread (facing 1700 1000 3800 1000 b) = (true, false, true, .local_, none, some ⟨7, 1⟩) ∧
    notices (facing 1700 1000 3800 1000 b) = [.intrusion .B ⟨7, 1⟩] ∧
    spread (facing 2200 1000 3800 1000 (paired c)) = (true, false, false, .paired, some ⟨4, 1⟩, some ⟨7, 1⟩) ∧
    notices (facing 2200 1000 3800 1000 (paired c)) = [.intrusion .B ⟨7, 1⟩] ∧
    spread (facing 2200 1000 3800 1000 c) = (true, false, false, .local_, some ⟨4, 1⟩, some ⟨7, 1⟩) ∧
    notices (facing 2200 1000 3800 1000 c) = [.intrusion .A ⟨4, 1⟩] ∧
    spread (facing 1000 1000 3000 1000 (paired bothLive)) = (true, false, false, .paired, none, none) ∧
    (withArm .A .live guarding).trippable .B = false := by
  simp only [State.QueueLaw, IsFirst, Party.forall_iff, Tile.forall_iff]
  and_intros <;> decide +kernel

/-! ### Witnesses: requests of the arms -/

/-- The three conditions of JOIN, with the epochs next to the current one. -/
theorem witness_JoinMakesAnArmArming :
    let j := fun e => Instr.join .A 0 none e
    (Taken .A (j 1) bothLive fun s => s.mode = .guarding ∧ s.guardState .A ≠ .offline) ∧
    (Taken .A (j 0) guarding fun s => s.mode = .guarding ∧ s.guardState .A = .offline ∧ 0 ≠ s.epoch) ∧
    (Taken .A (j 2) guarding fun s => s.guardState .A = .offline ∧ 2 ≠ s.epoch) ∧
    (Taken .A (j 1) guarding fun s => s.mode = .guarding ∧ s.guardState .A = .offline ∧ 1 = s.epoch) := by
  decide +kernel

/-- LEAVE of an OFFLINE and of a TRIPPED arm, with slot 0 and with slot 3 the lowest that is not EMPTY, with a trip claim
alone, and with every slot EMPTY. -/
theorem witness_LeaveNeedsEmptySlots :
    let c := Instr.leave .A 0 none
    (Taken .A c guarding fun s => s.guardState .A = .offline) ∧
    (Taken .A c (withArm .A .tripped guarding) fun s => s.guardState .A = .tripped) ∧
    (Taken .A c (holding .A 0 0 0 0 0 bothLive) fun s => s.guardState .A = .live ∧ s.slot .A 0 ≠ .empty) ∧
    (Taken .A c (holding .A 3 0 0 0 0 bothLive) fun s => s.slot .A 3 ≠ .empty ∧ ∀ j < 3, s.slot .A j = .empty) ∧
    (Taken .A c (bothLive.setTripTiles .A [⟨0, 0⟩]) fun s => (∀ k, s.slot .A k = .empty) ∧ s.tripTiles .A ≠ []) ∧
    (Taken .A c bothLive fun s =>
      s.guardState .A = .live ∧ (∀ k, s.slot .A k = .empty) ∧ s.tripTiles .A = []) := by decide +kernel

/-- CLEAR_TRIP of an arm that is not TRIPPED, of one with a trip claim, and of one without. -/
theorem witness_ClearTripRearms :
    let c := Instr.clearTrip .B 0 none
    (Taken .B c bothLive fun s => s.mode = .guarding ∧ s.guardState .B ≠ .tripped) ∧
    (Taken .B c (run (nop .B (report 1 3000 1000 0 0)) bothLive) fun s =>
      s.mode = .guarding ∧ s.guardState .B = .tripped ∧ s.tripTiles .B ≠ []) ∧
    (Taken .B c (run (nop .B (report 1 100 100 0 0)) (holding .A 0 0 0 0 0 bothLive)) fun s =>
      s.mode = .guarding ∧ s.guardState .B = .tripped ∧ s.tripTiles .B = [] ∧
      (s.arm .B).guard.trip.isSome = true) := by decide +kernel

/-- A lawful state: arm A ARMING with CLOSING tiles of its slot 0, arm B with a claim, and C waiting for a tile of A. -/
def shared : State :=
  run (.claim .C 0 none 1 2 0 0) (run (.block 0 0 0 0 1) (run (.claim .B 0 none 7 7 0 0)
    (run (.claim .A 0 none 0 1 0 1) (run (.join .B 0 none 1) (run (.join .A 0 none 1) (run (.start 0) State.reset))))))

/-- EVICT of a code beyond the arms, of a LIVE arm, and of lawful ARMING arms with a claim: one whose CLOSING tiles become
BLOCKED with BLOCK_DONE while B's claim stays, and C's waiting claim is granted. -/
theorem witness_EvictFreesTheArm :
    (shared.Lawful ∧ shared.closing = 2 ∧ (shared.slot .B 0).state = .held ∧ (shared.slot .C 0).state = .pending ∧
      let t := run (.evict 0 0) shared
      answer .C t = some (.done, .evicted .A .arming 1 4) ∧ t.closing = 0 ∧ tileAt 0 1 t = (.blocked, 0, none, 0) ∧
      tileAt 1 0 t = (.opened, 0, some .C, 1) ∧ t.slot .B 0 = shared.slot .B 0 ∧
      t.portC.attention = [.granted 0, .blockDone] ∧ t.portA.attention = [.evicted .arming]) ∧
    (latch (.evict 0 2) lawful).taken .C (.evict 0 2) = true ∧
    (Taken .C (.evict 0 0) bothLive fun s => s.guardState .A = .live) ∧
    (Taken .C (.evict 0 1) lawful fun s => s.guardState .B = .offline) ∧
    Taken .C (.evict 0 0) lawful fun s => s.guardState .A = .arming ∧ s.Lawful :=
  ⟨⟨State.lawful_of_check (by decide +kernel), by decide +kernel⟩, by decide +kernel, by decide +kernel,
    by decide +kernel, by decide +kernel, by decide +kernel, State.lawful_of_check (by decide +kernel)⟩

/-! ### Witnesses: claims -/

/-- CLAIM of the whole grid by C, and of one tile by A in its slot 1. -/
theorem witness_ClaimGrantedAtOnce :
    let c : Instr := .claim .C 0 none 0 7 0 3
    let d : Instr := .claim .A 0 none 0 0 0 0
    (Taken .C c bothLive fun s => s.mode = .guarding ∧ s.MayClaim .C ∧ s.params.Inside 0 7 0 3 ∧ s.NoPending .C ∧
      s.NewSlot .C 0 ∧ s.GrantableAtOnce .C (Rect.ofCorners 0 7 0 3)) ∧
    (Taken .A d (holding .A 0 0 1 0 0 bothLive) fun s => s.mode = .guarding ∧ s.MayClaim .A ∧
      s.params.Inside 0 0 0 0 ∧ s.NoPending .A ∧ s.NewSlot .A 1 ∧
      s.GrantableAtOnce .A (Rect.ofCorners 0 0 0 0)) := by
  simp only [Taken, State.MayClaim, State.GrantableAtOnce, Arm.forall_iff, Tile.forall_iff]
  and_intros <;> decide +kernel

/-- A CLAIM that waits, one that would close a cycle of two parties, one of three, and a SHIFT that waits. -/
theorem witness_NotGrantableIsQueuedOrCycle :
    let c : Instr := .claim .A 0 none 2 3 3 3
    let two : Instr := .claim .A 0 none 1 3 2 2
    let round : Instr := .claim .C 0 none 1 1 1 1
    let d : Instr := .shift .A 0 none 0 3 5 1 2
    let s := waiting .C 0 3 6 0 3 (holding .B 0 5 6 0 3 bothLive)
    let three := waiting .B 1 5 6 3 3 (waiting .A 1 4 4 1 1
      (holding .C 0 6 6 3 3 (holding .B 0 4 4 1 1 (holding .A 0 1 1 1 1 bothLive))))
    let opened := fun (s : State) (r : Rect) => ∀ t, r.contains t = true → (s.tile t).service = .opened
    (Taken .A c s fun s => s.mode = .guarding ∧ s.MayClaim .A ∧ s.params.Inside 2 3 3 3 ∧ s.NoPending .A ∧
      s.NewSlot .A 0 ∧ opened s (Rect.ofCorners 2 3 3 3) ∧
      s.grantable .A (Rect.ofCorners 2 3 3 3) s.nextArrival = false ∧
      s.closesCycle .A (Rect.ofCorners 2 3 3 3) = false) ∧
    (Taken .A two (holding .A 0 3 4 0 1 s) fun s => s.MayClaim .A ∧ s.NoPending .A ∧ s.NewSlot .A 1 ∧
      opened s (Rect.ofCorners 1 3 2 2) ∧ s.closesCycle .A (Rect.ofCorners 1 3 2 2) = true) ∧
    (Taken .C round three fun s => s.MayClaim .C ∧ s.NoPending .C ∧ s.NewSlot .C 1 ∧
      opened s (Rect.ofCorners 1 1 1 1) ∧ s.closesCycle .C (Rect.ofCorners 1 1 1 1) = true) ∧
    (Taken .A d (holding .B 0 5 7 2 3 (holding .A 0 1 3 0 1 bothLive)) fun s => s.MayClaim .A ∧ s.NoPending .A ∧
      s.NewSlot .A 1 ∧ s.slot .A 0 = .held ⟨1, 3, 0, 1⟩ none ∧ s.drainOf .A = none ∧
      opened s (Rect.ofCorners 3 5 1 2) ∧ s.grantable .A (Rect.ofCorners 3 5 1 2) s.nextArrival = false ∧
      s.closesCycle .A (Rect.ofCorners 3 5 1 2) = false) := by
  simp only [Taken, State.MayClaim, Arm.forall_iff, Tile.forall_iff]
  and_intros <;> decide +kernel

/-- An OFFLINE and a TRIPPED arm, a corner at NCOL, a claim that waits already, four slots in use, and a BLOCKED tile. -/
theorem witness_ClaimAndShiftRefusals :
    let c : Instr := .claim .A 0 none 0 0 0 0
    let d := fun (p : Party) (c1 r1 : Byte) => Instr.claim p 0 none 0 c1 0 r1
    let full := holding .C 3 3 3 0 0 (holding .C 2 2 2 0 0 (holding .C 1 1 1 0 0 (holding .C 0 0 0 0 0 bothLive)))
    let blocked := withTile 7 3 (fun q => { q with service := .blocked }) bothLive
    (Taken .A c guarding fun s => s.mode = .guarding ∧ s.guardState .A = .offline) ∧
    (Taken .A c (withArm .A .tripped guarding) fun s => s.mode = .guarding ∧ s.guardState .A = .tripped) ∧
    (Taken .A (d .A 8 0) bothLive fun s => s.mode = .guarding ∧ s.MayClaim .A ∧ ¬s.params.Inside 0 8 0 0) ∧
    (Taken .A (d .A 0 4) bothLive fun s => s.MayClaim .A ∧ ¬s.params.Inside 0 0 0 4) ∧
    (Taken .A (d .A 7 3) (waiting .A 0 0 0 0 0 bothLive) fun s =>
      s.MayClaim .A ∧ s.params.Inside 0 7 0 3 ∧ ¬s.NoPending .A) ∧
    (Taken .C (d .C 7 3) full fun s =>
      s.MayClaim .C ∧ s.params.Inside 0 7 0 3 ∧ s.NoPending .C ∧ ∀ k, s.slot .C k ≠ .empty) ∧
    (Taken .A (d .A 7 3) blocked fun s =>
      s.MayClaim .A ∧ s.params.Inside 0 7 0 3 ∧ s.NoPending .A ∧ s.slot .A 0 = .empty ∧
      IsFirst (fun z => (Rect.ofCorners 0 7 0 3).contains z = true ∧ (s.tile z).service ≠ .opened) ⟨7, 3⟩) := by
  simp only [Taken, State.MayClaim, IsFirst, Arm.forall_iff, Tile.forall_iff]
  and_intros <;> decide +kernel

/-- SHIFT of each row of the table of R103. -/
theorem witness_ShiftSourceTable :
    let c := fun (p : Party) (b : Byte) => Instr.shift p 0 none b 0 0 0 0
    let held := holding .A 0 0 0 0 0 bothLive
    let draining := (holding .A 1 1 1 0 0 bothLive).setSlot .A 0 (.draining ⟨0, 0, 0, 0⟩ 1)
    (Taken .A (c .A 5) bothLive fun s => s.mode = .guarding ∧ s.MayClaim .A) ∧
    (Taken .C (c .C 4) bothLive fun s => s.mode = .guarding ∧ s.MayClaim .C) ∧
    (Taken .A (c .A 4) bothLive fun s => s.MayClaim .A) ∧
    (Taken .A (c .A 3) bothLive fun s => s.MayClaim .A ∧ (s.slot .A 3).state = .empty) ∧
    (Taken .A (c .A 0) (waiting .A 0 0 0 0 0 bothLive) fun s => (s.slot .A 0).state = .pending) ∧
    (Taken .A (c .A 0) draining fun s => (s.slot .A 0).state = .draining) ∧
    (Taken .A (c .A 1) draining fun s => (s.slot .A 1).state = .held ∧ (s.slot .A 0).state = .draining) ∧
    (Taken .A (c .A 0) held fun s => (s.slot .A 0).state = .held ∧ ∀ j, (s.slot .A j).state ≠ .draining) := by
  simp only [Taken, State.MayClaim, Arm.forall_iff]
  and_intros <;> decide +kernel

/-- SHIFT granted at once to an arm whose tool stands over the source, to one that is clear, and to C. -/
theorem witness_ShiftGrantedAtOnce :
    let c := fun p => Instr.shift p 0 none 0 2 4 0 1
    let source := fun (s : State) p => match s.shiftSource p 0 with
      | .ok k => k == 0
      | .error _ => false
    let s := holding .A 0 0 2 0 1 bothLive
    let ready := fun (s : State) (p : Party) => s.mode = .guarding ∧ s.MayClaim p ∧ source s p = true ∧
      s.slot p 0 = .held ⟨0, 2, 0, 1⟩ none ∧ s.params.Inside 2 4 0 1 ∧ s.NoPending p ∧ s.NewSlot p 1 ∧
      s.GrantableAtOnce p (Rect.ofCorners 2 4 0 1)
    (Taken .A (c .A) s fun t => ready t .A ∧ t.touches .A ⟨1, 1⟩ = false) ∧
    (Taken .A (c .A) (s.setEvaluation .A (s.evaluate .A (report 5 900 600 0 0) 0)) fun t =>
      ready t .A ∧ t.touches .A ⟨1, 1⟩ = true ∧ (Rect.ofCorners 2 4 0 1).contains ⟨1, 1⟩ = false) ∧
    (Taken .C (c .C) (holding .C 0 0 2 0 1 bothLive) fun t => ready t .C) := by
  simp only [Taken, State.MayClaim, State.GrantableAtOnce, Arm.forall_iff, Tile.forall_iff]
  and_intros <;> decide +kernel

/-- RELEASE of slot 5, of an EMPTY slot, of a PENDING claim, of a HELD one with the tool over it and clear of it, and of
slot 4 with and without a trip claim. -/
theorem witness_ReleaseByCondition :
    let c := fun (b : Byte) => Instr.release .A 0 none b
    let r : Rect := ⟨0, 2, 0, 1⟩
    let s := holding .A 0 0 2 0 1 bothLive
    let trip := run (nop .A (report 1 100 100 0 0)) bothLive
    (Taken .A (c 5) s fun s => s.mode ≠ .setup) ∧
    (Taken .A (c 3) s fun s => s.mode ≠ .setup ∧ s.slot .A 3 = .empty) ∧
    (Taken .A (c 0) (waiting .A 0 0 0 0 0 bothLive) fun s => (s.slot .A 0).state = .pending) ∧
    (Taken .A (c 0) (s.setEvaluation .A (s.evaluate .A (report 5 900 600 0 0) 0)) fun s =>
      (s.slot .A 0).heldRect = some r ∧
      IsFirst (fun t => r.contains t = true ∧ (s.tile t).hold ≤ 1 ∧ s.touches .A t = true) ⟨1, 0⟩) ∧
    (Taken .A (c 0) s fun s => (s.slot .A 0).heldRect = some r ∧
      ∀ t, ¬(r.contains t = true ∧ (s.tile t).hold ≤ 1 ∧ s.touches .A t = true)) ∧
    (Taken .A (c 4) s fun s => s.tripTiles .A = []) ∧
    (Taken .A (c 4) trip fun s => s.tripTiles .A ≠ [] ∧
      IsFirst (fun t => s.inTrip .A t = true ∧ (s.tile t).hold ≤ 1 ∧ s.touches .A t = true) ⟨0, 0⟩) ∧
    (Taken .A (c 4) (trip.setEvaluation .A none) fun s => s.tripTiles .A ≠ [] ∧
      ∀ t, ¬(s.inTrip .A t = true ∧ (s.tile t).hold ≤ 1 ∧ s.touches .A t = true)) := by
  simp only [Taken, IsFirst, Tile.forall_iff]
  and_intros <;> decide +kernel

/-- A HELD target, its DRAINING source, and a PENDING target of the same party. -/
theorem witness_ReleaseEndsHolds :
    let s := (holding .A 0 0 0 0 0 bothLive).setSlot .A 1 (.draining ⟨0, 0, 0, 0⟩ 0)
    let t := s.setSlot .A 2 (.pending ⟨5, 5, 0, 0⟩ ⟨1, 0, false⟩ (some 0))
    (s.slot .A 0).heldRect = some ⟨0, 0, 0, 0⟩ ∧ s.slot .A 1 = .draining ⟨0, 0, 0, 0⟩ 0 ∧ s.slot .A 3 = .empty ∧
    t.slot .A 2 = .pending ⟨5, 5, 0, 0⟩ ⟨1, 0, false⟩ (some 0) := by decide +kernel

/-- A lawful state in which arm A and party C each wait for tiles of arm B with a shift whose source is a HELD claim of two
tiles, and arm B has left its claim: what a grant scan meets. -/
def shifting : State :=
  let s := run (.shift .C 0 none 0 2 2 3 3) (run (.shift .A 0 none 0 1 2 0 0) (run (.claim .C 0 none 0 1 2 2)
    (run (.claim .A 0 none 0 1 0 0) (run (.claim .B 0 none 2 2 0 3) (run (.join .B 0 none 1)
      (run (.join .A 0 none 1) (run (.start 0) State.reset)))))))
  (s.releaseSlot .B 0).1

/-- A lawful state with a claim that waits on; and one in which the shift targets of arm A and of party C are granted: A's
source then drains and names the target, and C's is released. -/
theorem witness_GrantScanGrantsAllItCan :
    (lawful.Lawful ∧ lawful.queue = [⟨.C, 0⟩] ∧ lawful.waiters.length = 1) ∧
    shifting.Lawful ∧ shifting.queue = [⟨.A, 1⟩, ⟨.C, 1⟩] ∧ shifting.grantScan.queue = [] ∧
    (shifting.grantScan.slot .A 0, shifting.grantScan.slot .A 1) =
      (.draining ⟨0, 1, 0, 0⟩ 1, .held ⟨1, 2, 0, 0⟩ (some 0)) ∧
    (shifting.grantScan.slot .C 0, shifting.grantScan.slot .C 1) = (.empty, .held ⟨2, 2, 3, 3⟩ none) ∧
    tileAt 1 0 shifting.grantScan = (.opened, 0, some .A, 2) ∧ tileAt 1 2 shifting.grantScan = (.opened, 0, none, 0) :=
  ⟨⟨lawful_lawful, by decide +kernel, by decide +kernel⟩, State.lawful_of_check (by decide +kernel), by decide +kernel,
    by decide +kernel, by decide +kernel, by decide +kernel, by decide +kernel, by decide +kernel⟩

/-- A claim that waits, its yield-asked flag clear and set, with WAIT_LIMIT 0 and above 0; B owns a tile of it. -/
theorem witness_WaitTimers :
    let s := waiting .C 3 0 0 0 0 (holding .B 0 0 0 0 0 bothLive)
    let t := s.setSlot .C 3 (.pending ⟨0, 0, 0, 0⟩ ⟨1, 500000, true⟩ none)
    s.slot .C 3 = .pending ⟨0, 0, 0, 0⟩ ⟨1, 0, false⟩ none ∧ 0 < s.params.waitLimit ∧
    ({ s.params with waitLimit := 0 } : Params).waitLimit = 0 ∧
    t.slot .C 3 = .pending ⟨0, 0, 0, 0⟩ ⟨1, 500000, true⟩ none ∧
    ((⟨0, 0, 0, 0⟩ : Rect).contains ⟨0, 0⟩ = true ∧ (s.tile ⟨0, 0⟩).owner = some .B) := by decide +kernel

/-! ### Witnesses: the Tile Map and the reads -/

/-- WRITE_ROW of no entry, of 33, of 1 and of 32, at the last row and column and beyond them; entries at the ends of what
is valid. -/
theorem witness_WriteRowPlacesEntries :
    let c := fun (n : Nat) (row col : Byte) => Instr.writeRow 0 row col (List.replicate n 0x13)
    let setup := fun (s : State) => s.mode = .setup ∧ s.params.nrow = 4 ∧ s.params.ncol = 8
    (∀ n ∈ [0, 1, 32, 33], Taken .C (c n 3 7) State.reset setup) ∧ Taken .C (c 1 4 0) State.reset setup ∧
    Taken .C (c 1 0 8) State.reset setup ∧
    ((0x13 : Byte).toNat / 16 ≤ 1 ∧ (0x13 : Byte).toNat % 16 < 4) ∧
    ¬((0x23 : Byte).toNat / 16 ≤ 1 ∧ (0x23 : Byte).toNat % 16 < 4) ∧
    ¬((0x04 : Byte).toNat / 16 ≤ 1 ∧ (0x04 : Byte).toNat % 16 < 4) := by decide +kernel

/-- BLOCK within and beyond the grid, in a state whose queue's law holds, over a claim that waits. -/
theorem witness_BlockTakesTilesOut :
    let c := fun (b : Byte) => Instr.block 0 0 b 0 0
    (Taken .C (c 1) lawful fun s => s.mode = .guarding ∧ s.QueueLaw ∧ s.params.Inside 0 1 0 0 ∧
      (∃ w ∈ s.waiters, w.rect = ⟨0, 1, 0, 0⟩) ∧ (s.tile ⟨1, 0⟩).service = .opened) ∧
    (Taken .C (c 8) lawful fun s => s.mode = .guarding ∧ s.QueueLaw ∧ ¬s.params.Inside 0 8 0 0) := by
  simp only [Taken, State.QueueLaw, Party.forall_iff]
  and_intros <;> decide +kernel

theorem witness_UnblockReturnsTiles :
    let c := fun (b : Byte) => Instr.unblock 0 0 7 0 b
    let s := run (.block 0 2 4 0 1) blocking
    (Taken .C (c 3) s fun s => s.mode = .guarding ∧ s.params.Inside 0 7 0 3 ∧ s.closing = 2) ∧
    (Taken .C (c 4) s fun s => s.mode = .guarding ∧ ¬s.params.Inside 0 7 0 4) := by decide +kernel

/-- The last row and the one beyond it, of the smallest and of the greatest grid. -/
theorem witness_ReadRowGivesTheRow :
    let c := fun (b : Byte) => Instr.readRow .B 0 none b
    let big := { State.reset with params := { Params.initial with ncol := 16, nrow := 8 } }
    (Taken .B (c 3) State.reset fun s => (3 : Byte).toNat < s.params.nrow) ∧
    (Taken .B (c 4) State.reset fun s => s.params.nrow ≤ (4 : Byte).toNat) ∧
    (Taken .B (c 7) big fun s => (7 : Byte).toNat < s.params.nrow ∧ s.params.nrow ≤ 8 ∧ s.params.ncol ≤ 16) := by
  decide +kernel

/-- Each read, with a code that names what it reads and the first one that does not. -/
theorem witness_ReadsOfArmsAndClaims :
    let taken := fun (p : Party) (c : Instr) => (latch c bothLive).taken p c = true
    taken .A (.readTrip .A 0 none none) ∧ taken .C (.readTrip .C 0 none (some 1)) ∧
    taken .C (.readTrip .C 0 none (some 2)) ∧ taken .C (.readArm 0 0) ∧ taken .C (.readArm 0 2) ∧
    taken .C (.readClaims 0 2) ∧ taken .C (.readClaims 0 3) ∧ taken .C (.readQueue 0) ∧
    ((lawful.viewClaims .A).map fun v => v.trip) = [some false, none, none, none, none] ∧
    lawful.waiters[0]?.isSome = true := by decide +kernel

/-! ### Witnesses: over all commands -/

/-- A command answers a next state with a property. -/
def answers (c : Instr) (s : State) (f : State → Bool) : Bool :=
  match exec c s with
  | .next t => f t
  | .fault _ => false
  | .refused _ => false

/-- A fourth clean report raises the permit, with its command and at an idle step before it. -/
theorem witness_PermitRisesOnACleanReportAlone :
    let c := nop .A (report 9 (-900) 1000 0 50)
    let s := (withArm .A .arming guarding).setGuard .A ⟨.arming, false, 3, some 1, none⟩
    (s.arm .A).guard.permit = false ∧ answers c (latch c s) (fun t => (t.arm .A).guard.permit) = true ∧
    (latch c s).pending = [] ∧ (idled (latch c s)).armA.guard.permit = true := by
  decide +kernel

/-- START, the halt line, SET_PARAM and WRITE_ROW each change what they name, and the end of the last hold of a CLOSING
tile changes its service. -/
theorem witness_ControlChangesByNamedCommands :
    answers (.start 0) (latch (.start 0) State.reset) (fun t => t.mode != .setup && t.epoch != 0) = true ∧
    answers .haltLineAssertion State.reset (fun t => t.haltLevel) = true ∧
    answers (.setParam 0 1 9) (latch (.setParam 0 1 9) State.reset) (fun t => t.params != Params.initial) = true ∧
    answers (.writeRow 0 0 0 [0x13]) (latch (.writeRow 0 0 0 [0x13]) State.reset)
      (fun t => (t.tile ⟨0, 0⟩).speedClass != 0 && (t.tile ⟨0, 0⟩).service != .opened) = true ∧
    (let s := run (.block 0 2 4 0 1) blocking
     answers (.release .A 0 none 0) (latch (.release .A 0 none 0) s)
      (fun t => (t.tile ⟨2, 0⟩).service == .blocked) = true) := by decide +kernel

/-- A request of arm A reaches neither arm B nor its port, and takes no notice out of a set. -/
theorem witness_PartiesAreIsolated :
    let c : Instr := .leave .A 0 none
    c ≠ .reset ∧ c.request.map (fun q => q.port) = some .A ∧ Arm.B.party ≠ .A ∧ c ≠ .reportPeriodExpiry .B ∧
    answers c (latch c (bothLive.raise .A .portFault)) (fun t => t.port .A != (latch c bothLive).port .A) = true := by
  decide +kernel

/-- The invariants hold of a state with a command in its queue, and a step from it answers a next state. -/
theorem witness_invariants :
    let s := { latch (.release .A 0 none 0) lawful with pending := [.release .A 0 none 0] }
    s.Lawful ∧ (match step s with
      | .next t => t.slot .C 0 == .held ⟨0, 1, 0, 0⟩ none
      | _ => false) = true :=
  ⟨State.lawful_of_check (by decide +kernel), by decide +kernel⟩

/-- Between events no claim of the lawful state is grantable, and its waits have no cycle. -/
theorem witness_StepKeepsNoneGrantableAndNoCycle : lawful.NoneGrantable ∧ lawful.NoCycle := by
  have h : ∀ y, (lawful.partyWaitsOn .A).has y = false ∧ (lawful.partyWaitsOn .B).has y = false := by
    simp only [Party.forall_iff]
    decide +kernel
  have hc : (lawful.partyWaitsOn .C).has .C = false := by decide +kernel
  exact ⟨by decide +kernel, fun x y z => by cases x <;> cases y <;> cases z <;> simp [h, hc]⟩

end Sys2Proof.Tests
end

section
/-! SUPPORT. READ_ROW (R20): the active tiles of a row in column order, and what the command section answers. -/

namespace Sys2Proof.Machine

open Sys2Proof

/-- The first `n` tiles of a row in column order. -/
def tilesOfRow (r : Fin 8) (n : Nat) (hn : n ≤ 16) : List Tile :=
  (List.finRange n).map fun c => ⟨c.castLE hn, r⟩

@[simp] theorem tilesOfRow_length (r : Fin 8) (n : Nat) (hn : n ≤ 16) : (tilesOfRow r n hn).length = n := by
  simp [tilesOfRow]

/-- The tile of a column stands at that place of its row. -/
theorem tilesOfRow_getElem {t : Tile} {n : Nat} (hn : n ≤ 16) (h : t.col.val < n) :
    (tilesOfRow t.row n hn)[t.col.val]? = some t := by
  simp [tilesOfRow, h]

theorem mem_tilesOfRow {r : Fin 8} {n : Nat} (hn : n ≤ 16) (t : Tile) :
    t ∈ tilesOfRow r n hn ↔ t.row = r ∧ t.col.val < n := by
  constructor
  · intro h
    obtain ⟨c, -, rfl⟩ := List.mem_map.mp h
    exact ⟨rfl, c.isLt⟩
  · rintro ⟨rfl, hc⟩
    exact List.mem_of_getElem? (tilesOfRow_getElem hn hc)

/-- Along a row the places of the storage rise. -/
theorem tilesOfRow_sorted (r : Fin 8) (n : Nat) (hn : n ≤ 16) :
    (tilesOfRow r n hn).Pairwise fun t u => t.index < u.index := by
  refine List.pairwise_map.mpr ((List.sortedLT_finRange n).pairwise.imp fun {c d} (h : c < d) => ?_)
  simpa [Tile.index] using h

/-- Two selections of tiles in scan order that hold the same tiles are the same. -/
theorem scanOrder_eq_of_mem_iff {ts us : List Tile} (ht : ts.Pairwise fun t u => t.index < u.index)
    (hu : us.Pairwise fun t u => t.index < u.index) (h : ∀ t, t ∈ ts ↔ t ∈ us) : ts = us := by
  have : Std.Irrefl fun t u : Tile => t.index < u.index := ⟨fun t => lt_irrefl t.index⟩
  have : Std.Antisymm fun t u : Tile => t.index < u.index := ⟨fun _ _ h h' => absurd h' h.asymm⟩
  exact ht.eq_of_mem_iff hu h

/-- READ_ROW's search of the storage finds the active tiles of the row in column order. -/
theorem allTiles_filter_row (r : Fin 8) (n : Nat) (hn : n ≤ 16) :
    (allTiles.filter fun t => t.row.val == r.val && decide (t.col.val < n)) = tilesOfRow r n hn :=
  scanOrder_eq_of_mem_iff (allTiles_sorted.filter _) (tilesOfRow_sorted r n hn) fun t => by
    simp [mem_tilesOfRow, Fin.ext_iff]

/-- A row beyond NROW−1 is refused (R20). -/
theorem readRowRequest_of_beyond {row : Byte} {s : State} (h : s.params.nrow ≤ row.toNat) :
    readRowRequest row s = (s, ⟨.badRect, false, .empty⟩) := by
  rw [readRowRequest, if_pos h, refuse]

/-- An active row is answered with the records of its active tiles (R20). -/
theorem readRowRequest_of_active {row : Byte} {s : State} (r : Fin 8) (hr : r.val = row.toNat)
    (h : row.toNat < s.params.nrow) (hn : s.params.ncol ≤ 16) :
    readRowRequest row s = (s, ⟨.done, false, .row ((tilesOfRow r s.params.ncol hn).map s.tile)⟩) := by
  rw [readRowRequest, if_neg h.not_ge]
  simp only [← hr, allTiles_filter_row r _ hn]

/-- Settles O51: the answer is the list of records of the row's active tiles, read at each column. -/
theorem readRowGivesTheRow : Obligations.ReadRowGivesTheRow := by
  unfold Obligations.ReadRowGivesTheRow
  intro p tag rep row s htaken s1
  rw [exec_readRow p tag rep row htaken]
  constructor
  · intro hbeyond
    rw [readRowRequest_of_beyond hbeyond]
  · intro hrow hnrow hncol
    obtain ⟨r, hr⟩ : ∃ r : Fin 8, r.val = row.toNat := ⟨⟨row.toNat, hrow.trans_le hnrow⟩, rfl⟩
    refine ⟨(tilesOfRow r s1.params.ncol hncol).map s1.tile, ?_, by simp, fun t ht hc => ?_⟩
    · rw [readRowRequest_of_active r hr hrow hncol]
    · obtain rfl : t.row = r := Fin.ext (ht.trans hr.symm)
      simp [tilesOfRow_getElem hncol hc]

end Sys2Proof.Machine
end

section
/-! SUPPORT. Stop distance and inflation (R25, R26): each term as the least whole number at or above its quotient. -/

namespace Sys2Proof.Machine

open Sys2Proof

/-- The law of the ceiling quotient with the divisor first, as R25 and R26 write their quotients. -/
theorem ceilDiv_le_iff_le_divisor_mul {n d k : Nat} (hd : 0 < d) : ceilDiv n d ≤ k ↔ n ≤ d * k := by
  rw [ceilDiv_le_iff hd, Nat.mul_comm]

/-- The inflation is rounded up once, over the whole product (R26). -/
theorem inflation_le_iff {v m period k : Nat} : inflation v m period ≤ k ↔ v * m * period ≤ 100000 * k :=
  ceilDiv_le_iff_le_divisor_mul (by decide)

/-- A probe at rest needs no distance to stop (R25). -/
@[simp] theorem stopDistance_at_rest (reaction decel : Nat) : stopDistance 0 reaction decel = 0 := by
  simp [stopDistance]

/-- A probe at rest is not inflated (R26). -/
@[simp] theorem inflation_at_rest (m period : Nat) : inflation 0 m period = 0 := by
  simp [inflation]

/-- With no missed report there is no inflation (R26). -/
@[simp] theorem inflation_none_missed (v period : Nat) : inflation v 0 period = 0 := by
  simp [inflation]

/-- Settles O25: the two summands of the model's stop distance are the reaction and the braking term, and the law of the
ceiling quotient makes each the least whole number at or above its quotient. -/
theorem stopDistanceAndInflation : Obligations.StopDistanceAndInflation := by
  unfold Obligations.StopDistanceAndInflation
  intro v reaction decel m period hdecel
  have hbrakingDivisor : 0 < 200 * decel := by omega
  refine ⟨⟨ceilDiv (v * reaction) 100, ceilDiv (v * v) (200 * decel), rfl, fun k => ?reaction, fun k => ?braking⟩,
    fun k => inflation_le_iff, stopDistance_at_rest reaction decel, inflation_at_rest m period,
    inflation_none_missed v period⟩
  case reaction => exact ceilDiv_le_iff_le_divisor_mul (by decide)
  case braking => rw [sq, ceilDiv_le_iff_le_divisor_mul hbrakingDivisor]

end Sys2Proof.Machine
end

section
/-! SUPPORT. The source of a SHIFT (R102, R103): the slot a byte names, the search for a DRAINING claim, the source
table as equations, and how SHIFT answers a source that is not shiftable. -/

namespace Sys2Proof.Machine

open Sys2Proof

/-- A byte below 4 names the ordinary slot of that number (R59). -/
theorem slotOfByte_of_toNat_eq {b : Byte} {k : SlotNo} (h : b.toNat = k.val) : slotOfByte b = some k := by
  rw [slotOfByte, dif_pos (h ▸ k.isLt)]
  exact congrArg some (Fin.ext h)

/-- No other byte names an ordinary slot (R59). -/
theorem slotOfByte_of_four_le {b : Byte} (h : 4 ≤ b.toNat) : slotOfByte b = none := by
  rw [slotOfByte, dif_neg h.not_gt]

/-- The search for a DRAINING claim finds one exactly where the party has one in some slot (R103). -/
theorem State.drainOf_isSome_iff {s : State} {p : Party} :
    (s.drainOf p).isSome = true ↔ ∃ j, (s.slot p j).state = .draining := by
  simp only [State.drainOf, List.findSome?_isSome_iff, mem_slotNos, true_and]
  refine exists_congr fun j => ?_
  cases s.slot p j <;> simp [Claim.state]

/-! ### The rows of the source table (R103) -/

/-- A slot number above 4 names no claim at any port. -/
theorem State.shiftSource_of_four_lt {s : State} {p : Party} {b : Byte} (h : 4 < b.toNat) :
    s.shiftSource p b = .error .noSuchClaim := by
  simp [State.shiftSource, slotOfByte_of_four_le h.le, h.ne']

/-- Party C has no slot 4. -/
theorem State.shiftSource_slot4_C {s : State} {b : Byte} (h : b.toNat = 4) :
    s.shiftSource .C b = .error .noSuchClaim := by
  simp [State.shiftSource, slotOfByte_of_four_le h.ge]

/-- A trip claim is never a source. -/
theorem State.shiftSource_slot4_arm {s : State} {p : Party} {b : Byte} (h : b.toNat = 4) (hp : p ≠ .C) :
    s.shiftSource p b = .error .notShiftable := by
  simp [State.shiftSource, slotOfByte_of_four_le h.ge, h, hp]

/-- An ordinary slot is judged by the state of its claim, a HELD one also by the party's DRAINING claim. -/
theorem State.shiftSource_ordinary {s : State} {p : Party} {b : Byte} {k : SlotNo} (h : b.toNat = k.val) :
    s.shiftSource p b =
      match (s.slot p k).state with
      | .empty => .error .noSuchClaim
      | .pending | .draining => .error .notShiftable
      | .held => if (s.drainOf p).isSome then .error .notShiftable else .ok k := by
  simp only [State.shiftSource, slotOfByte_of_toNat_eq h]
  cases s.slot p k <;> rfl

/-! ### SHIFT of a source that is not shiftable -/

/-- An arm that may claim passes check 2, and party C is not subject to it (R62, R102). -/
theorem State.standing_of_mayClaim {s : State} {p : Party} (h : s.MayClaim p) : s.standing p = none := by
  unfold State.standing
  cases hp : p.arm with
  | none => rfl
  | some x => obtain hg | hg := h x hp <;> simp [hg]

/-- The report of a request leaves the cell mode as it is (R43). -/
@[simp] theorem State.afterReport_mode (s : State) (p : Party) (rep : Option Report) :
    (s.afterReport p rep).mode = s.mode := by
  unfold State.afterReport
  split
  · rfl
  · simp

/-- Past checks 1 and 2 the source decides before the rectangle: SHIFT is refused with its code (R102). -/
theorem shiftRequest_of_source_error {p : Party} {b c0 c1 r0 r1 : Byte} {s : State} {code : Result}
    (hmode : s.mode = .guarding) (hmay : s.MayClaim p) (hsource : s.shiftSource p b = .error code) :
    shiftRequest p b c0 c1 r0 r1 s = (s, ⟨code, false, .empty⟩) := by
  simp [shiftRequest, hmode, State.standing_of_mayClaim hmay, hsource, refuse]

/-- Settles O42: SHIFT answers what the source table gives, so that each row is its equation of `shiftSource`. -/
theorem shiftSourceTable : Obligations.ShiftSourceTable := by
  unfold Obligations.ShiftSourceTable
  intro p tag rep source c0 c1 r0 r1 s htaken hmode s1 hmay refused draining
  have refused_of {code : Result} (h : s1.shiftSource p source = .error code) : refused code := by
    have hmode1 : s1.mode = .guarding := (s.afterReport_mode p rep).trans hmode
    simp only [refused, exec_shift p tag rep source c0 c1 r0 r1 htaken]
    rw [shiftRequest_of_source_error hmode1 hmay h]
  refine ⟨fun h => refused_of (State.shiftSource_of_four_lt h), fun h hp => ?slot4C,
    fun h hp => refused_of (State.shiftSource_slot4_arm h hp), fun k hk => ?ordinary⟩
  case slot4C =>
    subst hp
    exact refused_of (State.shiftSource_slot4_C h)
  case ordinary =>
    have hsource := State.shiftSource_ordinary (s := s1) (p := p) hk
    refine ⟨fun hempty => refused_of ?_, fun hpending => refused_of ?_, fun hdraining => refused_of ?_,
      fun hheld hdrain => refused_of ?_, fun hheld hnoDrain => ?_⟩
    · rw [hsource, hempty]
    · rw [hsource, hpending]
    · rw [hsource, hdraining]
    · simp only [hsource, hheld, if_pos (State.drainOf_isSome_iff.mpr hdrain)]
    · simp only [hsource, hheld, if_neg (hnoDrain ∘ State.drainOf_isSome_iff.mp)]

end Sys2Proof.Machine
end

section
/-! SUPPORT. START and CLEAR_HALT (R150, R154): the geometry epoch, and the conditions of each request as equations. -/

namespace Sys2Proof.Machine

open Sys2Proof

/-- The raised epoch as a number: it skips 0 where the byte would wrap (R150). -/
theorem raiseEpoch_toNat (e : Byte) :
    if e.toNat = 255 then (raiseEpoch e).toNat = 1 else (raiseEpoch e).toNat = e.toNat + 1 := by
  by_cases he : e = 255
  · subst he
    rfl
  · have hne : e.toNat ≠ 255 := fun h => he (BitVec.eq_of_toNat_eq h)
    have hlt : e.toNat < 256 := e.isLt
    have hsum : (e + 1).toNat = (e.toNat + 1) % 256 := BitVec.toNat_add e 1
    rw [if_neg hne, raiseEpoch, if_neg he, hsum, Nat.mod_eq_of_lt (by omega)]

/-! ### START (R150) -/

/-- START is taken in SETUP alone. -/
theorem startRequest_of_not_setup {s : State} (h : s.mode ≠ .setup) :
    startRequest s = (s, ⟨.wrongMode, false, .empty⟩) := by
  rw [startRequest, if_pos h, refuse]

/-- An asserted halt line holds the cell in SETUP. -/
theorem startRequest_of_lineAsserted {s : State} (h : s.mode = .setup) (hline : s.haltLevel = true) :
    startRequest s = (s, ⟨.causeActive, false, .empty⟩) := by
  rw [startRequest, if_neg (not_not.mpr h), if_pos hline, refuse]

/-- In SETUP with the line released the cell starts under the raised epoch. -/
theorem startRequest_of_lineReleased {s : State} (h : s.mode = .setup) (hline : s.haltLevel = false) :
    startRequest s =
      ({ s with mode := .guarding, epoch := raiseEpoch s.epoch }, ⟨.done, false, .started (raiseEpoch s.epoch)⟩) := by
  rw [startRequest, if_neg (not_not.mpr h), if_neg (Bool.not_eq_true _ ▸ hline)]

/-! ### CLEAR_HALT (R154) -/

/-- CLEAR_HALT is taken in HALTED alone. -/
theorem clearHaltRequest_of_not_halted {s : State} (h : s.mode ≠ .halted) :
    clearHaltRequest s = (s, ⟨.wrongMode, false, .empty⟩) := by
  rw [clearHaltRequest, if_pos h, refuse]

/-- An asserted halt line holds the cell in HALTED. -/
theorem clearHaltRequest_of_lineAsserted {s : State} (h : s.mode = .halted) (hline : s.haltLevel = true) :
    clearHaltRequest s = (s, ⟨.causeActive, false, .empty⟩) := by
  rw [clearHaltRequest, if_neg (not_not.mpr h), if_pos hline, refuse]

/-- In HALTED with the line released the cell guards again, under the same epoch. -/
theorem clearHaltRequest_of_lineReleased {s : State} (h : s.mode = .halted) (hline : s.haltLevel = false) :
    clearHaltRequest s = ({ s with mode := .guarding }, ⟨.done, false, .empty⟩) := by
  rw [clearHaltRequest, if_neg (not_not.mpr h), if_neg (Bool.not_eq_true _ ▸ hline)]

/-- Settles O6: each condition is its equation of the command section, and the epoch of START is the raised one. -/
theorem startAndClearHalt : Obligations.StartAndClearHalt := by
  unfold Obligations.StartAndClearHalt
  intro tag s
  constructor
  · intro htaken
    rw [exec_start tag htaken]
    refine ⟨fun h => ?notSetup, fun h hline => ?asserted,
      fun h hline => ⟨raiseEpoch s.epoch, raiseEpoch_toNat _, ?released⟩⟩
    case notSetup => rw [startRequest_of_not_setup h]
    case asserted => rw [startRequest_of_lineAsserted h hline]
    case released => rw [startRequest_of_lineReleased h hline]
  · intro htaken
    rw [exec_clearHalt tag htaken]
    refine ⟨fun h => ?notHalted, fun h hline => ?asserted, fun h hline => ?released⟩
    case notHalted => rw [clearHaltRequest_of_not_halted h]
    case asserted => rw [clearHaltRequest_of_lineAsserted h hline]
    case released => rw [clearHaltRequest_of_lineReleased h hline]

end Sys2Proof.Machine
end

section
/-! SUPPORT. The parameter store (R157 to R160): the table of ranges, what a stored parameter reads back as, and the
value SET_PARAM stores. -/

namespace Sys2Proof.Machine

open Sys2Proof

/-! ### The ranges (R157) -/

/-- R157's table: each identifier with the least and the greatest value of its parameter. -/
def paramTable : List (Nat × Nat × Nat) :=
  [(1, 2, 16), (2, 1, 8), (3, 100, 2000), (4, 0, 500), (5, 0, 60000), (6, 10, 60000), (7, 10, 4000),
    (8, 10, 4000), (9, 10, 4000), (10, 0, 1), (17, 0, 1000), (18, 0, 1000), (19, 1, 50), (20, 5, 200),
    (21, 100, 4000), (22, 10, 200), (23, 1, 16), (24, 250, 4000), (25, 1, 8), (33, 0, 1000), (34, 0, 1000),
    (35, 1, 50), (36, 5, 200), (37, 100, 4000), (38, 10, 200), (39, 1, 16), (40, 250, 4000), (41, 1, 8)]

/-- No identifier is above 41. -/
theorem paramRange_of_gt {n : Nat} (h : 41 < n) : paramRange n = none := by
  unfold paramRange
  split
  case h_11 => rw [if_neg (by omega), if_neg (by omega)]
  all_goals omega

/-- The rows of the table for a number are the range of that identifier: one row for a known one, none for another. -/
theorem paramTable_rows (n : Nat) :
    paramTable.filter (fun e => e.1 == n) = ((paramRange n).map fun range => (n, range)).toList := by
  have hsmall : ∀ m ∈ List.range 42,
      paramTable.filter (fun e => e.1 == m) = ((paramRange m).map fun range => (m, range)).toList := by decide
  have hids : ∀ e ∈ paramTable, e.1 ≤ 41 := by decide
  by_cases hn : n < 42
  · exact hsmall n (List.mem_range.mpr hn)
  · rw [paramRange_of_gt (by omega), Option.map_none, Option.toList_none, List.filter_eq_nil_iff]
    intro e he
    have := hids e he
    simp only [beq_iff_eq]
    omega

theorem paramRange_eq_some_iff {n lo hi : Nat} : paramRange n = some (lo, hi) ↔ (n, lo, hi) ∈ paramTable := by
  have hrow : (n, lo, hi) ∈ paramTable ↔ (n, lo, hi) ∈ paramTable.filter fun e => e.1 == n := by
    simp [List.mem_filter]
  simp [hrow, paramTable_rows]

/-- The known identifiers are those the table lists. -/
theorem mem_paramTable_ids {n : Nat} :
    n ∈ paramTable.map Prod.fst ↔ ∃ lo hi, paramRange n = some (lo, hi) := by
  simp [paramRange_eq_some_iff]

/-- No range is empty. -/
theorem lo_le_hi_of_paramRange {n lo hi : Nat} (h : paramRange n = some (lo, hi)) : lo ≤ hi := by
  have hrows : ∀ e ∈ paramTable, e.2.1 ≤ e.2.2 := by decide
  exact hrows _ (paramRange_eq_some_iff.mp h)

/-- The identifiers by kind: ten of the cell, nine of each arm (R157). -/
theorem ident_cases {n : Nat} (h : (paramRange n).isSome = true) :
    (1 ≤ n ∧ n ≤ 10) ∨ (∃ i, 1 ≤ i ∧ i ≤ 9 ∧ n = 16 + i) ∨ ∃ i, 1 ≤ i ∧ i ≤ 9 ∧ n = 32 + i := by
  obtain ⟨⟨lo, hi⟩, hrange⟩ := Option.isSome_iff_exists.mp h
  have hids : ∀ e ∈ paramTable, (1 ≤ e.1 ∧ e.1 ≤ 10) ∨ (17 ≤ e.1 ∧ e.1 ≤ 25) ∨ (33 ≤ e.1 ∧ e.1 ≤ 41) := by decide
  obtain hcell | ⟨hge, hle⟩ | ⟨hge, hle⟩ := hids _ (paramRange_eq_some_iff.mp hrange)
  · exact .inl hcell
  · exact .inr (.inl ⟨n - 16, by omega⟩)
  · exact .inr (.inr ⟨n - 32, by omega⟩)

/-! ### Reading what was written (R159, R160) -/

theorem ArmParams.read_write_same (a : ArmParams) (v : Nat) {i : Nat} (h1 : 1 ≤ i) (h9 : i ≤ 9) :
    (a.write i v).read i = v := by
  interval_cases i <;> rfl

theorem ArmParams.read_write_other (a : ArmParams) (v : Nat) {i j : Nat} (h : j ≠ i) :
    (a.write i v).read j = a.read j := by
  unfold ArmParams.write
  split
  case h_10 => rfl
  all_goals
    unfold ArmParams.read
    split <;> trivial

theorem Params.read_armA (ps : Params) {i : Nat} (h1 : 1 ≤ i) (h9 : i ≤ 9) : ps.read (16 + i) = ps.armA.read i := by
  interval_cases i <;> rfl

theorem Params.read_armB (ps : Params) {i : Nat} (h1 : 1 ≤ i) (h9 : i ≤ 9) : ps.read (32 + i) = ps.armB.read i := by
  interval_cases i <;> rfl

theorem Params.write_armA (ps : Params) (v : Nat) {i : Nat} (h1 : 1 ≤ i) (h9 : i ≤ 9) :
    ps.write (16 + i) v = { ps with armA := ps.armA.write i v } := by
  interval_cases i <;> rfl

theorem Params.write_armB (ps : Params) (v : Nat) {i : Nat} (h1 : 1 ≤ i) (h9 : i ≤ 9) :
    ps.write (32 + i) v = { ps with armB := ps.armB.write i v } := by
  interval_cases i <;> rfl

/-- A value of 0 or 1 names a TRIP_SCOPE whose code it is. -/
theorem Params.read_write_tripScope (ps : Params) {v : Nat} (h : v ≤ 1) : (ps.write 10 v).read 10 = v := by
  interval_cases v <;> rfl

/-- A parameter reads back as what was written to it; TRIP_SCOPE holds 0 and 1 only. -/
theorem Params.read_write_same (ps : Params) {n v : Nat} (hn : (paramRange n).isSome = true)
    (hscope : n = 10 → v ≤ 1) : (ps.write n v).read n = v := by
  obtain ⟨h1, h10⟩ | ⟨i, h1, h9, rfl⟩ | ⟨i, h1, h9, rfl⟩ := ident_cases hn
  · obtain rfl | hlt := h10.eq_or_lt
    · exact ps.read_write_tripScope (hscope rfl)
    · interval_cases n <;> rfl
  · rw [ps.write_armA v h1 h9, Params.read_armA _ h1 h9, ArmParams.read_write_same _ _ h1 h9]
  · rw [ps.write_armB v h1 h9, Params.read_armB _ h1 h9, ArmParams.read_write_same _ _ h1 h9]

/-- The parameters of arm A, after a store under another identifier. -/
theorem Params.armA_read_write_other (ps : Params) {m i : Nat} (v : Nat) (hm : (paramRange m).isSome = true)
    (h : 16 + i ≠ m) :
    (ps.write m v).armA.read i = ps.armA.read i := by
  obtain ⟨h1, h10⟩ | ⟨j, h1, h9, rfl⟩ | ⟨j, h1, h9, rfl⟩ := ident_cases hm
  · interval_cases m <;> rfl
  · rw [ps.write_armA v h1 h9, ArmParams.read_write_other _ _ (by omega)]
  · rw [ps.write_armB v h1 h9]

/-- The parameters of arm B, after a store under another identifier. -/
theorem Params.armB_read_write_other (ps : Params) {m i : Nat} (v : Nat) (hm : (paramRange m).isSome = true)
    (h : 32 + i ≠ m) :
    (ps.write m v).armB.read i = ps.armB.read i := by
  obtain ⟨h1, h10⟩ | ⟨j, h1, h9, rfl⟩ | ⟨j, h1, h9, rfl⟩ := ident_cases hm
  · interval_cases m <;> rfl
  · rw [ps.write_armA v h1 h9]
  · rw [ps.write_armB v h1 h9, ArmParams.read_write_other _ _ (by omega)]

/-- The parameters of the cell, after a store under another identifier. -/
theorem Params.read_cell_write_other (ps : Params) {m n : Nat} (v : Nat) (h1 : 1 ≤ n) (h10 : n ≤ 10) (h : n ≠ m) :
    (ps.write m v).read n = ps.read n := by
  unfold Params.write
  split
  case h_11 => split <;> interval_cases n <;> rfl
  all_goals
    unfold Params.read
    split <;> trivial

/-- A store under one identifier leaves every other parameter as it was (R159). -/
theorem Params.read_write_other (ps : Params) {m n : Nat} (v : Nat) (hm : (paramRange m).isSome = true)
    (hn : (paramRange n).isSome = true) (h : n ≠ m) : (ps.write m v).read n = ps.read n := by
  obtain ⟨h1, h10⟩ | ⟨i, h1, h9, rfl⟩ | ⟨i, h1, h9, rfl⟩ := ident_cases hn
  · exact ps.read_cell_write_other v h1 h10 h
  · rw [Params.read_armA _ h1 h9, Params.read_armA _ h1 h9, ps.armA_read_write_other v hm h]
  · rw [Params.read_armB _ h1 h9, Params.read_armB _ h1 h9, ps.armB_read_write_other v hm h]

/-! ### The value stored (R56, R159) -/

/-- Saturation to a range that is not empty, as the comparisons of R159. -/
theorem saturate_eq_ite {lo hi : Nat} (v : Nat) (h : lo ≤ hi) :
    saturate lo hi v = if v < lo then lo else if hi < v then hi else v := by
  unfold saturate
  split_ifs <;> omega

theorem saturate_le {lo hi : Nat} (v : Nat) (h : lo ≤ hi) : saturate lo hi v ≤ hi :=
  max_le h (min_le_right v hi)

theorem isPeriod_iff {n : Nat} : isPeriod n = true ↔ n = 24 ∨ n = 40 := by
  simp [isPeriod]

/-- A REPORT_PERIOD is first brought down to a multiple of 250; the value is then saturated. -/
theorem storedValue_eq {n lo hi : Nat} (v : Nat) (h : lo ≤ hi) :
    storedValue n v (lo, hi) =
      let w := if n = 24 ∨ n = 40 then v - v % 250 else v
      if w < lo then lo else if hi < w then hi else w := by
  have hround : v / 250 * 250 = v - v % 250 := by omega
  simp only [storedValue, saturate_eq_ite _ h, isPeriod_iff, hround]

theorem storedValue_le {n lo hi : Nat} (v : Nat) (h : lo ≤ hi) : storedValue n v (lo, hi) ≤ hi :=
  saturate_le _ h

/-- The value SET_PARAM stores reads back, TRIP_SCOPE's too, which its range keeps at 0 or 1. -/
theorem Params.read_write_storedValue (ps : Params) {n lo hi : Nat} (v : Nat) (h : paramRange n = some (lo, hi)) :
    (ps.write n (storedValue n v (lo, hi))).read n = storedValue n v (lo, hi) := by
  refine ps.read_write_same (by rw [h]; rfl) fun hscope => ?_
  subst hscope
  obtain ⟨rfl, rfl⟩ : 0 = lo ∧ 1 = hi := by simpa [paramRange] using h
  exact storedValue_le v (by decide)

/-! ### SET_PARAM and GET_PARAM -/

theorem setParamRequest_of_not_setup {ident : Byte} {value : Word16} {s : State} (h : s.mode ≠ .setup) :
    setParamRequest ident value s = (s, ⟨.wrongMode, false, .empty⟩) := by
  rw [setParamRequest, if_pos h, refuse]

theorem setParamRequest_of_unknown {ident : Byte} {value : Word16} {s : State} (h : s.mode = .setup)
    (hident : paramRange ident.toNat = none) :
    setParamRequest ident value s = (s, ⟨.badParam, false, .empty⟩) := by
  simp [setParamRequest, h, hident, refuse]

theorem setParamRequest_of_known {ident : Byte} {value : Word16} {s : State} {range : Nat × Nat} (h : s.mode = .setup)
    (hident : paramRange ident.toNat = some range) :
    setParamRequest ident value s =
      ({ s with params := s.params.write ident.toNat (storedValue ident.toNat value.toNat range) },
        ⟨if storedValue ident.toNat value.toNat range = value.toNat then .done else .clamped, false,
          .param ident (storedValue ident.toNat value.toNat range)⟩) := by
  simp [setParamRequest, h, hident]

theorem getParamRequest_of_unknown {ident : Byte} {s : State} (hident : paramRange ident.toNat = none) :
    getParamRequest ident s = (s, ⟨.badParam, false, .empty⟩) := by
  rw [getParamRequest, hident, refuse]

theorem getParamRequest_of_known {ident : Byte} {s : State} {range : Nat × Nat}
    (hident : paramRange ident.toNat = some range) :
    getParamRequest ident s = (s, ⟨.done, false, .param ident (s.params.read ident.toNat)⟩) := by
  simp only [getParamRequest, hident]

/-- Settles O11: the ranges are the rows of the table; SET_PARAM writes the stored value, which reads back and leaves the
other parameters alone; GET_PARAM reads the identifiers that have a row. -/
theorem setParamAndGetParam : Obligations.SetParamAndGetParam := by
  unfold Obligations.SetParamAndGetParam
  refine ⟨fun n lo hi => paramRange_eq_some_iff, fun tag ident value s htaken => ?set, fun tag ident s htaken => ?get⟩
  case set =>
    rw [exec_setParam tag ident value htaken]
    refine ⟨fun hmode => ?_, fun hmode hident => ?_, fun hmode lo hi hident => ?_⟩
    · rw [setParamRequest_of_not_setup hmode]
    · rw [setParamRequest_of_unknown hmode hident]
    · have hknown : (paramRange ident.toNat).isSome = true := by rw [hident]; rfl
      refine ⟨s.params.write ident.toNat (storedValue ident.toNat value.toNat (lo, hi)),
        storedValue ident.toNat value.toNat (lo, hi), ?_, storedValue_eq _ (lo_le_hi_of_paramRange hident),
        s.params.read_write_storedValue _ hident, fun n hne hn => s.params.read_write_other _ hknown hn hne⟩
      rw [setParamRequest_of_known hmode hident]
  case get =>
    rw [exec_getParam tag ident htaken]
    refine ⟨fun hunknown => ?_, fun hknown => ⟨s.params.read ident.toNat, ?_, rfl, fun hscope => ?_⟩⟩
    · have hident : paramRange ident.toNat = none :=
        Option.eq_none_iff_forall_ne_some.mpr fun range h => hunknown (mem_paramTable_ids.mpr ⟨range.1, range.2, h⟩)
      rw [getParamRequest_of_unknown hident]
    · obtain ⟨lo, hi, hident⟩ := mem_paramTable_ids.mp hknown
      rw [getParamRequest_of_known hident]
    · rw [hscope]
      cases h : s.params.tripScope <;> simp [Params.read, TripScope.code, h]

end Sys2Proof.Machine
end

section
/-! SUPPORT. What the report section of a request does to the ports: it raises notices and does nothing else there, so
that it keeps the order of every attention set (R43, R169). -/

namespace Sys2Proof.Machine

open Sys2Proof

/-- Between two states every port changes by notices raised alone. -/
def State.OnlyRaises (s t : State) : Prop :=
  ∀ p, Relation.ReflTransGen (fun q r : Port => ∃ n, r = q.raise n) (s.port p) (t.port p)

namespace State.OnlyRaises

@[refl] theorem refl (s : State) : s.OnlyRaises s := fun _ => .refl

variable {s t u : State}

/-- What writes no port raises nothing. -/
theorem of_port_eq (h : s.OnlyRaises t) (hport : ∀ p, u.port p = t.port p) : s.OnlyRaises u :=
  fun p => hport p ▸ h p

/-- Raises keep the ascending code order of a set (R169). -/
theorem sorted (h : s.OnlyRaises t) {p : Party} (hs : ((s.port p).attention.map Notice.code).Pairwise (· < ·)) :
    ((t.port p).attention.map Notice.code).Pairwise (· < ·) := by
  have hraises := h p
  generalize t.port p = q at hraises ⊢
  induction hraises with
  | refl => exact hs
  | tail _ hraise ih =>
    obtain ⟨n, rfl⟩ := hraise
    exact insertNotice_sorted ih

theorem raise (h : s.OnlyRaises t) (p : Party) (n : Notice) : s.OnlyRaises (t.raise p n) := by
  intro r
  by_cases hr : r = p
  · subst hr
    exact (h r).tail ⟨n, State.port_raise t r n⟩
  · rw [State.port_raise_of_ne t n hr]
    exact h r

/-! ### Releases and grants (R16, R67 to R69) -/

theorem lowerClosing (h : s.OnlyRaises t) (n : Nat) : s.OnlyRaises (t.lowerClosing n) := by
  have hcount : s.OnlyRaises { t with closing := t.closing - n } := h.of_port_eq fun p => by cases p <;> rfl
  unfold State.lowerClosing
  split
  · exact hcount.raise .C .blockDone
  · exact hcount

theorem dropHolds (h : s.OnlyRaises t) (f : Tile → Bool) : s.OnlyRaises (t.dropHolds f) :=
  lowerClosing (h.of_port_eq fun p => by cases p <;> rfl) _

theorem releaseSlot (h : s.OnlyRaises t) (p : Party) (k : SlotNo) : s.OnlyRaises (t.releaseSlot p k).1 := by
  unfold State.releaseSlot
  split
  · exact h
  · rename_i r _
    exact (h.dropHolds r.contains).of_port_eq fun q => by simp

theorem cancelPending (h : s.OnlyRaises t) (p : Party) (c : CancelCause) : s.OnlyRaises (t.cancelPending p c) := by
  unfold State.cancelPending
  split
  · exact (h.of_port_eq (port_removePending t _)).raise p _
  · exact h

/-- A grant raises BLOCK_DONE alone, where the release of a source of party C ends a closing (R109). -/
theorem grant (h : s.OnlyRaises t) (n : ClaimName) (r : Rect) (l : Option SlotNo) : s.OnlyRaises (t.grant n r l).1 := by
  have hheld : s.OnlyRaises (((t.addHolds n.party r.contains).dequeue n).setSlot n.party n.slot (.held r l)) :=
    h.of_port_eq fun p => by simp
  unfold State.grant
  split
  · exact hheld
  · split
    · exact hheld.releaseSlot .C _
    · exact hheld.of_port_eq (port_startDrain _ .A _ n.slot)
    · exact hheld.of_port_eq (port_startDrain _ .B _ n.slot)

/-! ### The grant scan and the drain (R88 to R90, R110) -/

theorem scanEntry {acc : State × Bool} (h : s.OnlyRaises acc.1) (n : ClaimName) :
    s.OnlyRaises (Machine.scanEntry acc n).1 := by
  obtain hleft | ⟨w, -, -, hgranted⟩ := scanEntry_cases acc n
  · rw [hleft]; exact h
  · rw [hgranted]; exact (h.grant n w.rect w.link).raise n.party _

theorem scanPass (h : s.OnlyRaises t) : s.OnlyRaises t.scanPass.1 :=
  List.foldlRecOn (motive := fun acc : State × Bool => s.OnlyRaises acc.1) t.queue Machine.scanEntry h
    fun _ hacc n _ => scanEntry hacc n

theorem scanPasses (n : Nat) (h : s.OnlyRaises t) : s.OnlyRaises (Machine.scanPasses n t) := by
  induction n generalizing t with
  | zero => exact h
  | succ n ih =>
    unfold Machine.scanPasses
    split
    · exact ih h.scanPass
    · exact h.scanPass

theorem grantScan (h : s.OnlyRaises t) : s.OnlyRaises t.grantScan := scanPasses _ h

theorem drain (h : s.OnlyRaises t) (x : Arm) : s.OnlyRaises (t.drain x) := by
  obtain hkept | ⟨k, r, target, q, -, -, -, hdrained⟩ := t.drain_cases x
  · rw [hkept]; exact h
  · rw [hdrained]; exact ((h.releaseSlot x.party k).raise x.party _).grantScan

/-! ### Trips (R133, R137 to R139) -/

theorem tripBegin (h : s.OnlyRaises t) (x : Arm) (c : Cause) (own : Bool) (tile : Option Tile) :
    s.OnlyRaises (t.tripBegin x c own tile) :=
  ((h.of_port_eq (port_tripGuard t x c own tile)).cancelPending x.party .trip).of_port_eq (port_buildTripClaim _ x)

theorem raiseIntrusion (h : s.OnlyRaises t) (x : Arm) (tile : Option Tile) : s.OnlyRaises (t.raiseIntrusion x tile) := by
  cases tile with
  | none => exact h
  | some tile => exact h.raise .C _

theorem announceTrip (h : s.OnlyRaises t) (x : Arm) (c : Cause) : s.OnlyRaises (t.announceTrip x c) :=
  (h.raise x.party _).raise .C _

theorem tripImposed (h : s.OnlyRaises t) (x : Arm) (c : Cause) (tile : Option Tile) :
    s.OnlyRaises (t.tripImposed x c tile) :=
  ((h.tripBegin x c false tile).raiseIntrusion x _).announceTrip x c

theorem contactTrip (h : s.OnlyRaises t) (x : Arm) : s.OnlyRaises (t.contactTrip x) := by
  unfold State.contactTrip
  split
  · exact h
  · split
    · exact h.tripImposed x.other _ _
    · exact h

theorem scopeTrip (h : s.OnlyRaises t) (x : Arm) (c : Cause) : s.OnlyRaises (t.scopeTrip x c) := by
  unfold State.scopeTrip
  split
  · exact h.tripImposed x.other c none
  · exact h

theorem tripOwn (h : s.OnlyRaises t) (x : Arm) (c : Cause) : s.OnlyRaises (t.tripOwn x c) :=
  (((((h.tripBegin x c true none).contactTrip x).raiseIntrusion x _).scopeTrip x c).announceTrip x c).grantScan

/-! ### The evaluation of a report (R39, R48, R121) -/

theorem setGuard (h : s.OnlyRaises t) (x : Arm) (g : Guard) : s.OnlyRaises (t.setGuard x g) :=
  h.of_port_eq (t.port_setGuard x g)

theorem countClean (h : s.OnlyRaises t) (x : Arm) (e : Evaluation) : s.OnlyRaises (t.countClean x e) := by
  unfold State.countClean
  dsimp only
  split
  · split
    · exact (h.setGuard x _).raise x.party _
    · exact h.setGuard x _
  · exact h.setGuard x _

theorem guardActs (h : s.OnlyRaises t) (x : Arm) (e : Evaluation) (st : Start) : s.OnlyRaises (t.guardActs x e st) := by
  unfold State.guardActs
  split
  · exact h
  · split
    · exact h.countClean x e
    · exact h
  · split
    · exact h.tripOwn x .stale
    · split
      · exact h.tripOwn x _
      · exact h
  · split
    · exact h.setGuard x _
    · exact h

theorem evaluateReport (h : s.OnlyRaises t) (x : Arm) (rep : Report) (m : Nat) (st : Start) :
    s.OnlyRaises (t.evaluateReport x rep m st) := by
  unfold State.evaluateReport
  split
  · split
    · exact h.tripOwn x .stale
    · exact h
  · rename_i e _
    have hacted : s.OnlyRaises ((t.setEvaluation x (some e)).guardActs x e st) :=
      (h.of_port_eq (t.port_setEvaluation x (some e))).guardActs x e st
    dsimp only
    split
    · exact hacted
    · exact hacted.drain x

theorem freshReport (h : s.OnlyRaises t) (x : Arm) (rep : Report) : s.OnlyRaises (t.freshReport x rep) := by
  unfold State.freshReport
  dsimp only
  split
  · exact h.of_port_eq (t.port_setMonitor x _)
  · exact (h.of_port_eq (t.port_setMonitor x _)).evaluateReport x rep 0 .fresh

theorem armReport (h : s.OnlyRaises t) (x : Arm) (rep : Report) : s.OnlyRaises (t.armReport x rep) := by
  obtain hkept | ⟨why, hrefused⟩ | hfresh := t.armReport_cases x rep
  · rw [hkept]; exact h
  · rw [hrefused]; exact h.raise x.party _
  · rw [hfresh]; exact h.freshReport x rep

theorem takeReport (h : s.OnlyRaises t) (p : Party) (rep : Option Report) : s.OnlyRaises (t.takeReport p rep) := by
  unfold State.takeReport
  split
  · exact h.armReport _ _
  · exact h

theorem afterReport (h : s.OnlyRaises t) (p : Party) (rep : Option Report) : s.OnlyRaises (t.afterReport p rep) := by
  unfold State.afterReport
  split
  · exact h
  · exact h.takeReport p rep

end State.OnlyRaises

/-- The report of a request keeps the ascending code order of every attention set (R43, R169). -/
theorem State.afterReport_sorted {s : State} {p : Party} (port : Party) (rep : Option Report)
    (h : ((s.port p).attention.map Notice.code).Pairwise (· < ·)) :
    (((s.afterReport port rep).port p).attention.map Notice.code).Pairwise (· < ·) :=
  ((State.OnlyRaises.refl s).afterReport port rep).sorted h

end Sys2Proof.Machine
end

section
/-! SUPPORT. ACK (R170): what it leaves in its port's set, and which kinds it answers. -/

namespace Sys2Proof.Machine

open Sys2Proof

/-- A notice is listed where some code of the list is that of its kind (R170). -/
theorem Notice.listed_iff {n : Notice} {codes : List Byte} : n.listed codes = true ↔ ∃ c ∈ codes, c.toNat = n.code := by
  simp [Notice.listed]

/-- The notices left are those whose kind is not listed (R170). -/
theorem Port.mem_attention_acknowledge {q : Port} {codes : List Byte} {n : Notice} :
    n ∈ (q.acknowledge codes).attention ↔ n ∈ q.attention ∧ ∀ c ∈ codes, c.toNat ≠ n.code := by
  simp [Port.acknowledge, Notice.listed]

/-- The attention line is on while the set is not empty (R169). -/
theorem Port.line_acknowledge_iff {q : Port} {codes : List Byte} :
    (q.acknowledge codes).line = true ↔ (q.acknowledge codes).attention ≠ [] := by
  simp [Port.acknowledge]

/-- The kinds removed are the listed ones that were present (R170). -/
theorem Port.mem_removedBy {q : Port} {codes : List Byte} {k : Nat} :
    k ∈ q.removedBy codes ↔ (∃ n ∈ q.attention, n.code = k) ∧ ∃ c ∈ codes, c.toNat = k := by
  simp only [Port.removedBy, List.mem_map, List.mem_filter, Notice.listed_iff]
  constructor
  · rintro ⟨n, ⟨hn, hlisted⟩, rfl⟩
    exact ⟨⟨n, hn, rfl⟩, hlisted⟩
  · rintro ⟨⟨n, hn, rfl⟩, hlisted⟩
    exact ⟨n, ⟨hn, hlisted⟩, rfl⟩

/-- The kinds removed are answered in the order in which they stood in the set. -/
theorem Port.removedBy_sublist (q : Port) (codes : List Byte) :
    (q.removedBy codes).Sublist (q.attention.map Notice.code) :=
  List.filter_sublist.map _

/-- Settles O21: the report raises notices alone, so that the set is in order when ACK acts on it, and the kinds removed
stand in the order of the set. -/
theorem ackRemovesListedKinds : Obligations.AckRemovesListedKinds := by
  unfold Obligations.AckRemovesListedKinds
  intro p tag rep codes s htaken s1
  have hremoved := (s1.port p).removedBy_sublist codes
  refine ⟨((s1.port p).acknowledge codes).attention, ((s1.port p).acknowledge codes).line, (s1.port p).removedBy codes,
    exec_ack p tag rep codes htaken, List.filter_sublist, fun n => Port.mem_attention_acknowledge,
    Port.line_acknowledge_iff, hremoved, fun hlaw => ?_, fun k => Port.mem_removedBy⟩
  obtain ⟨hsorted, -, -⟩ := hlaw
  exact (State.afterReport_sorted p rep hsorted).sublist hremoved

end Sys2Proof.Machine
end

section
/-! SUPPORT. The moves of the part: the single changes that evaluations, expiries, trips and grant scans are made of, each
with the condition under which it is made, and each compound operation as a run of them. A law that every move keeps is
kept by all of these operations. -/

namespace Sys2Proof.Machine

open Sys2Proof

/-! ### Notices and their ports (R169) -/

/-- The kinds up to 5 tell of claims, and every party has claims. -/
theorem Notice.allowedAt_of_code_le {n : Notice} (p : Party) (h : n.code ≤ 5) : n.allowedAt p = true := by
  unfold Notice.allowedAt
  split
  · simp [h]
  · simp only [decide_eq_true_eq]; omega

/-- At an Arm Port the kinds are those up to 13. -/
theorem Notice.allowedAt_arm {n : Notice} (x : Arm) (h : n.code ≤ 13) : n.allowedAt x.party = true := by
  cases x <;> simp [Notice.allowedAt, Arm.party, h]

/-- HALTED and PORT_FAULT are kinds of every port. -/
theorem Notice.allowedAt_of_code_eq {n : Notice} (p : Party) (h : n.code = 11 ∨ n.code = 12) : n.allowedAt p = true := by
  unfold Notice.allowedAt
  split
  · obtain h | h := h <;> simp [h]
  · simp only [decide_eq_true_eq]; omega

/-- The kinds from 14 are those of the Cell Port. -/
theorem Notice.allowedAt_C {n : Notice} (h : 14 ≤ n.code) : n.allowedAt .C = true := by
  simp [Notice.allowedAt, h]

/-! ### The DRAINING claim of a party (R103) -/

/-- The DRAINING claim that a search finds stands in the slot it names. -/
theorem State.slot_of_drainOf {s : State} {p : Party} {k t : SlotNo} {r : Rect}
    (h : s.drainOf p = some (k, r, t)) : s.slot p k = .draining r t := by
  obtain ⟨j, -, hj⟩ := List.exists_of_findSome?_eq_some h
  cases hs : s.slot p j with
  | draining q i =>
    simp only [hs, Option.some.injEq, Prod.mk.injEq] at hj
    obtain ⟨rfl, rfl, rfl⟩ := hj
    exact hs
  | _ => simp [hs] at hj

/-! ### Moves -/

/-- One change, with what is known where it is made. -/
inductive State.Move : State → State → Prop
  /-- A notice of a kind of the port is raised (R169). -/
  | raise (s : State) (p : Party) (n : Notice) (h : n.allowedAt p = true) : Move s (s.raise p n)
  /-- A Report Monitor stores a report or a count, or restarts a timer that runs (R47, R48, R50). -/
  | monitor (s : State) (x : Arm) (m : Monitor)
      (h : m.timer.isSome = (s.arm x).monitor.timer.isSome ∨ s.guardState x ≠ .offline ∧ m.timer.isSome = true) :
      Move s (s.setMonitor x m)
  /-- An evaluation is recorded (R37). -/
  | evaluation (s : State) (x : Arm) (rep : Report) (m : Nat) (e : Evaluation) (h : s.evaluate x rep m = some e) :
      Move s (s.setEvaluation x (some e))
  /-- A guard changes without joining, leaving or tripping: its state and permit stay, or an ARMING arm becomes LIVE
  (R121, R122, R144). -/
  | guard (s : State) (x : Arm) (g : Guard)
      (hstate : g.state = s.guardState x ∧ g.permit = (s.arm x).guard.permit ∨
        s.guardState x = .arming ∧ g.state = .live ∧ g.permit = true)
      (hjoined : g.joined = (s.arm x).guard.joined)
      (hclean : 0 < g.clean → 0 < (s.arm x).guard.clean ∨ s.guardState x = .arming) :
      Move s (s.setGuard x g)
  /-- A PENDING claim is removed (R72, R92, R95). -/
  | remove (s : State) (n : ClaimName) (w : Waiter) (h : s.waiter n = some w) : Move s (s.removePending n)
  /-- A HELD or DRAINING claim is released (R69). -/
  | release (s : State) (p : Party) (k : SlotNo) (h : (s.slot p k).heldRect.isSome = true) :
      Move s (s.releaseSlot p k).1
  /-- A trip claim is released (R69, R77). -/
  | releaseTrip (s : State) (x : Arm) : Move s (s.releaseTrip x).1
  /-- A waiting claim that is grantable is granted (R67). -/
  | grant (s : State) (n : ClaimName) (w : Waiter) (hw : s.waiter n = some w)
      (hg : s.grantable n.party w.rect w.wait.arrival = true) : Move s (s.grant n w.rect w.link).1
  /-- Steps 1 to 3 of the trip of an ARMING or LIVE arm (R133). -/
  | trip (s : State) (x : Arm) (c : Cause) (own : Bool) (tile : Option Tile) (h : s.trippable x = true) :
      Move s (s.tripBegin x c own tile)

/-- A run of moves. -/
def State.Moves : State → State → Prop := Relation.ReflTransGen State.Move

namespace State.Moves

variable {s t u : State}

@[refl] theorem refl (s : State) : s.Moves s := Relation.ReflTransGen.refl

theorem step (h : s.Moves t) (hu : t.Move u) : s.Moves u := Relation.ReflTransGen.tail h hu

/-- A law that every move keeps is kept by a run of them. -/
theorem keeps {P : State → Prop} (hP : ∀ a b, State.Move a b → P a → P b) (h : s.Moves t) (hs : P s) : P t := by
  induction h with
  | refl => exact hs
  | tail _ hmove ih => exact hP _ _ hmove ih

theorem raise (h : s.Moves t) (p : Party) (n : Notice) (hn : n.allowedAt p = true) : s.Moves (t.raise p n) :=
  h.step (.raise t p n hn)

theorem cancelPending (h : s.Moves t) (p : Party) (c : CancelCause) : s.Moves (t.cancelPending p c) := by
  unfold State.cancelPending
  split
  · rename_i w hw
    obtain ⟨hmem, -⟩ := State.pendingOf_some hw
    have hwaiter : t.waiter w.name = some w := State.waiter_eq_some.mpr ⟨rfl, (State.mem_waiters.mp hmem).2⟩
    exact (h.step (.remove t w.name w hwaiter)).raise p _ (Notice.allowedAt_of_code_le p (by simp [Notice.code]))
  · exact h

/-! ### The grant scan and the drain (R88 to R90, R110) -/

theorem scanEntry {acc : State × Bool} (h : s.Moves acc.1) (n : ClaimName) : s.Moves (Machine.scanEntry acc n).1 := by
  obtain hleft | ⟨w, hw, hg, hgranted⟩ := scanEntry_cases acc n
  · rw [hleft]; exact h
  · rw [hgranted]
    exact (h.step (.grant acc.1 n w hw hg)).raise n.party _ (Notice.allowedAt_of_code_le _ (by simp [Notice.code]))

theorem scanPass (h : s.Moves t) : s.Moves t.scanPass.1 :=
  List.foldlRecOn (motive := fun acc : State × Bool => s.Moves acc.1) t.queue Machine.scanEntry h
    fun _ hacc n _ => scanEntry hacc n

theorem scanPasses (n : Nat) (h : s.Moves t) : s.Moves (Machine.scanPasses n t) := by
  induction n generalizing t with
  | zero => exact h
  | succ n ih =>
    unfold Machine.scanPasses
    split
    · exact ih h.scanPass
    · exact h.scanPass

theorem grantScan (h : s.Moves t) : s.Moves t.grantScan := scanPasses _ h

theorem drain (h : s.Moves t) (x : Arm) : s.Moves (t.drain x) := by
  obtain hkept | ⟨k, r, target, q, hdrain, -, -, hdrained⟩ := t.drain_cases x
  · rw [hkept]; exact h
  · rw [hdrained]
    have hheld : (t.slot x.party k).heldRect.isSome = true := by rw [State.slot_of_drainOf hdrain]; rfl
    exact ((h.step (.release t x.party k hheld)).raise x.party _ (Notice.allowedAt_arm x (by simp [Notice.code]))).grantScan

/-! ### Trips (R133, R137 to R139) -/

theorem raiseIntrusion (h : s.Moves t) (x : Arm) (tile : Option Tile) : s.Moves (t.raiseIntrusion x tile) := by
  cases tile with
  | none => exact h
  | some tile => exact h.raise .C _ (Notice.allowedAt_C (by simp [Notice.code]))

theorem announceTrip (h : s.Moves t) (x : Arm) (c : Cause) : s.Moves (t.announceTrip x c) :=
  (h.raise x.party _ (Notice.allowedAt_arm x (by simp [Notice.code]))).raise .C _
    (Notice.allowedAt_C (by simp [Notice.code]))

theorem tripImposed (h : s.Moves t) (x : Arm) (c : Cause) (tile : Option Tile) (hx : t.trippable x = true) :
    s.Moves (t.tripImposed x c tile) :=
  ((h.step (.trip t x c false tile hx)).raiseIntrusion x _).announceTrip x c

theorem contactTrip (h : s.Moves t) (x : Arm) : s.Moves (t.contactTrip x) := by
  unfold State.contactTrip
  split
  · exact h
  · split
    · exact h.tripImposed x.other _ _ ‹_›
    · exact h

theorem scopeTrip (h : s.Moves t) (x : Arm) (c : Cause) : s.Moves (t.scopeTrip x c) := by
  unfold State.scopeTrip
  split
  · rename_i hscope
    exact h.tripImposed x.other c none hscope.2
  · exact h

theorem tripOwn (h : s.Moves t) (x : Arm) (c : Cause) (hx : t.trippable x = true) : s.Moves (t.tripOwn x c) :=
  (((((h.step (.trip t x c true none hx)).contactTrip x).raiseIntrusion x _).scopeTrip x c).announceTrip x c).grantScan

theorem haltArm (h : s.Moves t) (x : Arm) : s.Moves (t.haltArm x) := by
  unfold State.haltArm
  split
  · exact h.tripImposed x .halt none ‹_›
  · exact h

/-! ### The evaluation of a report (R39, R48, R121) -/

theorem countClean (h : s.Moves t) (x : Arm) (e : Evaluation) (hx : t.guardState x = .arming) :
    s.Moves (t.countClean x e) := by
  unfold State.countClean
  dsimp only
  split
  · split
    · exact (h.step (.guard t x { (t.arm x).guard with state := .live, permit := true, clean := (t.arm x).guard.clean + 1 }
        (.inr ⟨hx, rfl, rfl⟩) rfl fun _ => .inr hx)).raise x.party _
        (Notice.allowedAt_arm x (by simp [Notice.code]))
    · exact h.step (.guard t x _ (.inl ⟨rfl, rfl⟩) rfl fun _ => .inr hx)
  · exact h.step (.guard t x _ (.inl ⟨rfl, rfl⟩) rfl fun _ => .inr hx)

theorem guardActs (h : s.Moves t) (x : Arm) (e : Evaluation) (st : Start) : s.Moves (t.guardActs x e st) := by
  unfold State.guardActs
  split
  case h_1 => exact h
  case h_2 harming =>
    split
    · exact h.countClean x e harming
    · exact h
  case h_3 hlive =>
    have htrip : t.trippable x = true := by simp [State.trippable, hlive]
    split
    · exact h.tripOwn x .stale htrip
    · split
      · exact h.tripOwn x _ htrip
      · exact h
  case h_4 =>
    split
    · exact h.step (.guard t x _ (.inl ⟨rfl, rfl⟩) rfl fun hc => .inl hc)
    · exact h

theorem evaluateReport (h : s.Moves t) (x : Arm) (rep : Report) (m : Nat) (st : Start)
    (hst : st = .stale → t.guardState x = .live) : s.Moves (t.evaluateReport x rep m st) := by
  unfold State.evaluateReport
  split
  · split
    · rename_i hstale
      exact h.tripOwn x .stale (by simp [State.trippable, hst hstale])
    · exact h
  · rename_i e he
    have hacted := (h.step (.evaluation t x rep m e he)).guardActs x e st
    dsimp only
    split
    · exact hacted
    · exact hacted.drain x

theorem freshReport (h : s.Moves t) (x : Arm) (rep : Report) : s.Moves (t.freshReport x rep) := by
  unfold State.freshReport
  dsimp only
  split
  · exact h.step (.monitor t x _ (.inl rfl))
  · rename_i hjoined
    exact evaluateReport (h.step (.monitor t x _ (.inr ⟨hjoined, rfl⟩))) x rep 0 .fresh (fun h => by cases h)

theorem armReport (h : s.Moves t) (x : Arm) (rep : Report) : s.Moves (t.armReport x rep) := by
  obtain hkept | ⟨why, hrefused⟩ | hfresh := t.armReport_cases x rep
  · rw [hkept]; exact h
  · rw [hrefused]; exact h.raise x.party _ (Notice.allowedAt_arm x (by simp [Notice.code]))
  · rw [hfresh]; exact h.freshReport x rep

theorem takeReport (h : s.Moves t) (p : Party) (rep : Option Report) : s.Moves (t.takeReport p rep) := by
  unfold State.takeReport
  split
  · exact h.armReport _ _
  · exact h

theorem afterReport (h : s.Moves t) (p : Party) (rep : Option Report) : s.Moves (t.afterReport p rep) := by
  unfold State.afterReport
  split
  · exact h
  · exact h.takeReport p rep

/-! ### Expiries (R50 to R52) -/

theorem periodExpiry (h : s.Moves t) (x : Arm) (hx : (t.arm x).monitor.timer.isSome = true) :
    s.Moves (t.periodExpiry x) := by
  have hrestarted (m : Monitor) (hm : m.timer.isSome = true) : s.Moves ((t.setMonitor x m).expiryInArming x) := by
    have hset := h.step (.monitor t x m (.inl (hm.trans hx.symm)))
    unfold State.expiryInArming
    split
    · exact hset.step (.guard _ x _ (.inl ⟨rfl, rfl⟩) rfl fun h0 => absurd h0 (lt_irrefl 0))
    · exact hset
  unfold State.periodExpiry
  dsimp only
  generalize hu : State.expiryInArming _ x = u
  have hmoves : s.Moves u := hu ▸ hrestarted _ rfl
  split
  · unfold State.evaluateLast
    split
    · exact hmoves
    · exact hmoves.evaluateReport x _ _ .expiry (fun h => by cases h)
  · split
    · unfold State.staleExpiry
      split
      · rename_i hlive
        split
        · exact hmoves.tripOwn x .stale (by simp [State.trippable, hlive])
        · exact hmoves.evaluateReport x _ _ .stale fun _ => hlive
      · exact hmoves
    · exact hmoves

/-! ### The claims of an evicted arm (R96) -/

theorem evictClaims (h : s.Moves t) (x : Arm) : s.Moves (t.evictClaims x).1 := by
  have hslot (acc : State × Nat × Nat) (hacc : s.Moves acc.1) (k : SlotNo) : s.Moves (evictSlot x.party acc k).1 := by
    unfold evictSlot
    split
    · exact hacc
    · rename_i hheld
      exact hacc.step (.release acc.1 x.party k (by simp [hheld]))
  have hslots (n : Nat) : s.Moves (slotNos.foldl (evictSlot x.party) (t.cancelPending x.party .evict, n, 0)).1 :=
    List.foldlRecOn (motive := fun acc : State × Nat × Nat => s.Moves acc.1) slotNos (evictSlot x.party)
      (h.cancelPending x.party .evict) fun acc hacc k _ => hslot acc hacc k
  have htrip (acc : State × Nat × Nat) (hacc : s.Moves acc.1) : s.Moves (evictTrip x acc).1 := by
    unfold evictTrip
    split
    · exact hacc
    · exact hacc.step (.releaseTrip _ x)
  exact htrip _ (hslots _)

end State.Moves

end Sys2Proof.Machine
end

section
/-! SUPPORT. What the command section of a request can do, and what any command can do: one inversion lemma for all of
them, from which each law is derived by cases. -/

namespace Sys2Proof

open Sys2Proof.Machine

/-- The command section of a request (R163 step 3); the other commands have none. -/
def Instr.command : Instr → State → State × Answer
  | .nop .. => fun s => (s, ⟨.done, false, .empty⟩)
  | .ack p _ _ codes => ackRequest p codes
  | .readRow _ _ _ row => readRowRequest row
  | .join x _ _ epoch => joinRequest x epoch
  | .leave x _ _ => leaveRequest x
  | .clearTrip x _ _ => clearTripRequest x
  | .readTrip p _ _ arm => readTripRequest p arm
  | .claim p _ _ c0 c1 r0 r1 => claimRequest p c0 c1 r0 r1
  | .shift p _ _ source c0 c1 r0 r1 => shiftRequest p source c0 c1 r0 r1
  | .release p _ _ slot => releaseRequest p slot
  | .block _ c0 c1 r0 r1 => blockRequest c0 c1 r0 r1
  | .unblock _ c0 c1 r0 r1 => unblockRequest c0 c1 r0 r1
  | .writeRow _ row col entries => writeRowRequest row col entries
  | .setParam _ ident value => setParamRequest ident value
  | .getParam _ ident => getParamRequest ident
  | .start _ => startRequest
  | .stop _ => stopRequest
  | .halt _ => haltRequest
  | .clearHalt _ => clearHaltRequest
  | .evict _ arm => evictRequest arm
  | .readClaims _ party => readClaimsRequest party
  | .readQueue _ => readQueueRequest
  | .readArm _ arm => readArmRequest arm
  | .exchangeEnd .. | .overrun .. | .reportPeriodExpiry .. | .waitLimitExpiry .. | .yieldTime ..
  | .haltLineAssertion | .haltLineRelease | .reset | .resetRelease | .frameCheckRefusal .. =>
    fun s => (s, ⟨.done, false, .empty⟩)

end Sys2Proof

namespace Sys2Proof.Machine

open Sys2Proof

/-- A request is served with its command section (R163). -/
theorem exec_request {c : Instr} {q : Request} (hq : c.request = some q) (s : State) :
    exec c s = serve c c.command s := by
  cases c <;> first | rfl | cases hq

/-- A request that its port has taken is answered with what its command section leaves (R163). -/
theorem exec_of_taken {c : Instr} {q : Request} {s : State} (hq : c.request = some q) (h : s.taken q.port c = true) :
    exec c s =
      .next ((c.command (s.afterReport q.port q.rep)).1.placeReply q.port q.tag q.kind
        (c.command (s.afterReport q.port q.rep)).2) :=
  (exec_request hq s).trans (serve_taken c.command hq h)

/-- A request that its port has not taken changes nothing (log 5). -/
theorem exec_of_not_taken {c : Instr} {q : Request} {s : State} (hq : c.request = some q)
    (h : s.taken q.port c = false) : exec c s = .next s :=
  (exec_request hq s).trans (serve_not_taken c.command hq h)

/-! ### Claims that a request places (R62, R102) -/

/-- A rectangle as sent that is taken is normalized within the active grid (R63). -/
theorem Params.rectLaw_of_rect {ps : Params} {c0 c1 r0 r1 : Byte} {r : Rect} {b : Bool}
    (h : ps.rect c0 c1 r0 r1 = some (r, b)) : ps.RectLaw r := by
  unfold Params.rect at h
  split at h
  · cases h
  · simp only [Option.some.injEq, Prod.mk.injEq] at h
    obtain ⟨rfl, -⟩ := h
    dsimp only [Params.RectLaw]
    omega

/-- A claim of party `p` over `r` that has passed the checks of R62 or R102 up to the protected tiles, with the slot it
takes and, for a SHIFT, its source. -/
structure State.Placeable (s : State) (p : Party) (k : SlotNo) (r : Rect) (link : Option SlotNo) : Prop where
  mode : s.mode = .guarding
  standing : s.standing p = none
  rect : s.params.RectLaw r
  noPending : s.pendingOf p = none
  slot : s.firstEmpty p = some k
  opened : s.firstProtected r = none
  source : ∀ j, link = some j → (∃ q l, s.slot p j = .held q l) ∧ s.drainOf p = none

/-- What the command section of a request can leave, with what is known where it does. -/
inductive State.Serves : Instr → State → State → Prop
  | unchanged (c : Instr) (s : State) : Serves c s s
  | acknowledges (p : Party) (tag : BitVec 4) (rep : Option Report) (codes : List Byte) (s : State) :
      Serves (.ack p tag rep codes) s (s.setPort p ((s.port p).acknowledge codes))
  | joins (x : Arm) (tag : BitVec 4) (rep : Option Report) (epoch : Byte) (s : State) (hmode : s.mode = .guarding)
      (hx : s.guardState x = .offline) : Serves (.join x tag rep epoch) s (s.joins x)
  | leaves (x : Arm) (tag : BitVec 4) (rep : Option Report) (s : State)
      (hx : s.guardState x = .arming ∨ s.guardState x = .live) (hholding : s.firstHolding x = none) :
      Serves (.leave x tag rep) s (s.goOffline x)
  | rearms (x : Arm) (tag : BitVec 4) (rep : Option Report) (s : State) (hmode : s.mode = .guarding)
      (hx : s.guardState x = .tripped) (htrip : s.tripTiles x = []) :
      Serves (.clearTrip x tag rep) s
        (s.setGuard x
          { (s.arm x).guard.mapTrip (fun r => { r with cleared := true }) with
            state := .arming, permit := false, clean := 0 })
  | evicts (x : Arm) (tag : BitVec 4) (arm : Byte) (s : State)
      (hx : s.guardState x = .arming ∨ s.guardState x = .tripped) : Serves (.evict tag arm) s (s.evicts x).1
  | grants (c : Instr) (p : Party) (k : SlotNo) (r : Rect) (s : State) (hclaim : s.Placeable p k r none)
      (hgrant : s.grantable p r s.nextArrival = true) : Serves c s (s.grant ⟨p, k⟩ r none).1
  | shifts (c : Instr) (p : Party) (k source : SlotNo) (r : Rect) (s : State) (hclaim : s.Placeable p k r (some source))
      (hgrant : s.grantable p r s.nextArrival = true) : Serves c s (s.settleShift p k source r).1
  | queues (c : Instr) (p : Party) (k : SlotNo) (r : Rect) (link : Option SlotNo) (s : State)
      (hclaim : s.Placeable p k r link) (hgrant : s.grantable p r s.nextArrival = false)
      (hcycle : s.closesCycle p r = false) : Serves c s (s.enqueue p k r link)
  | withdraws (c : Instr) (p : Party) (k : SlotNo) (w : Waiter) (s : State) (hw : s.waiter ⟨p, k⟩ = some w) :
      Serves c s (s.removePending ⟨p, k⟩).grantScan
  | releases (c : Instr) (p : Party) (k : SlotNo) (s : State) (h : (s.slot p k).heldRect.isSome = true) :
      Serves c s (s.releaseSlot p k).1.grantScan
  | releasesTrip (c : Instr) (x : Arm) (s : State) : Serves c s (s.releaseTrip x).1.grantScan
  | blocks (tag : BitVec 4) (c0 c1 r0 r1 : Byte) (s : State) (hmode : s.mode = .guarding) :
      Serves (.block tag c0 c1 r0 r1) s (blockRequest c0 c1 r0 r1 s).1
  | unblocks (tag : BitVec 4) (c0 c1 r0 r1 : Byte) (s : State) (hmode : s.mode = .guarding) :
      Serves (.unblock tag c0 c1 r0 r1) s (unblockRequest c0 c1 r0 r1 s).1
  | writes (tag : BitVec 4) (row start : Byte) (entries : List Byte) (s : State) (hmode : s.mode = .setup) :
      Serves (.writeRow tag row start entries) s (writeRowRequest row start entries s).1
  | sets (tag : BitVec 4) (ident : Byte) (value : Word16) (s : State) (hmode : s.mode = .setup) (range : Nat × Nat)
      (hrange : paramRange ident.toNat = some range) :
      Serves (.setParam tag ident value) s
        { s with params := s.params.write ident.toNat (storedValue ident.toNat value.toNat range) }
  | starts (tag : BitVec 4) (s : State) (hmode : s.mode = .setup) (hline : s.haltLevel = false) :
      Serves (.start tag) s { s with epoch := raiseEpoch s.epoch, mode := .guarding }
  | stops (tag : BitVec 4) (s : State) (hmode : s.mode ≠ .setup) : Serves (.stop tag) s (stopRequest s).1
  | halts (tag : BitVec 4) (s : State) (hmode : s.mode = .guarding) : Serves (.halt tag) s (s.haltCell .request)
  | clearsHalt (tag : BitVec 4) (s : State) (hmode : s.mode = .halted) (hline : s.haltLevel = false) :
      Serves (.clearHalt tag) s { s with mode := .guarding }

/-! ### Each request by its conditions -/

theorem State.serves_join (x : Arm) (tag : BitVec 4) (rep : Option Report) (epoch : Byte) (s : State) :
    State.Serves (.join x tag rep epoch) s (joinRequest x epoch s).1 := by
  unfold joinRequest
  split_ifs with hmode hx
  · exact .unchanged _ s
  · exact .unchanged _ s
  · exact .unchanged _ s
  · exact .joins x tag rep epoch s (not_not.mp hmode) (not_not.mp hx)

theorem State.serves_leave (x : Arm) (tag : BitVec 4) (rep : Option Report) (s : State) :
    State.Serves (.leave x tag rep) s (leaveRequest x s).1 := by
  unfold leaveRequest
  split
  · exact .unchanged _ s
  · exact .unchanged _ s
  · rename_i hoffline htripped
    split
    · exact .unchanged _ s
    · rename_i hholding
      refine .leaves x tag rep s ?_ hholding
      cases hg : s.guardState x with
      | offline => exact absurd hg hoffline
      | tripped => exact absurd hg htripped
      | arming => exact .inl rfl
      | live => exact .inr rfl

theorem State.serves_clearTrip (x : Arm) (tag : BitVec 4) (rep : Option Report) (s : State) :
    State.Serves (.clearTrip x tag rep) s (clearTripRequest x s).1 := by
  unfold clearTripRequest
  split_ifs with hmode hx htrip
  · exact .unchanged _ s
  · exact .unchanged _ s
  · exact .unchanged _ s
  · exact .rearms x tag rep s (not_not.mp hmode) (not_not.mp hx) (not_not.mp htrip)

theorem State.serves_evict (tag : BitVec 4) (arm : Byte) (s : State) :
    State.Serves (.evict tag arm) s (evictRequest arm s).1 := by
  unfold evictRequest
  split
  · exact .unchanged _ s
  · rename_i x _
    split
    · exact .unchanged _ s
    · exact .unchanged _ s
    · exact .evicts x tag arm s (.inl ‹_›)
    · exact .evicts x tag arm s (.inr ‹_›)

/-- What a claim that has passed the checks before it leaves (R65, R66). -/
theorem State.serves_placeClaim {c : Instr} {s : State} {p : Party} {k : SlotNo} {r : Rect} {b : Bool}
    (h : s.firstProtected r = none → s.Placeable p k r none) : State.Serves c s (placeClaim s p k r b).1 := by
  unfold placeClaim
  split
  · exact .unchanged c s
  · rename_i hopened
    split_ifs with hgrant hcycle
    · exact .grants c p k r s (h hopened) hgrant
    · exact .unchanged c s
    · exact .queues c p k r none s (h hopened) (by simpa using hgrant) (by simpa using hcycle)

theorem State.serves_placeShift {c : Instr} {s : State} {p : Party} {k source : SlotNo} {r : Rect} {b : Bool}
    (h : s.firstProtected r = none → s.Placeable p k r (some source)) :
    State.Serves c s (placeShift s p k source r b).1 := by
  unfold placeShift
  split
  · exact .unchanged c s
  · rename_i hopened
    split_ifs with hgrant hcycle
    · exact .shifts c p k source r s (h hopened) hgrant
    · exact .unchanged c s
    · exact .queues c p k r (some source) s (h hopened) (by simpa using hgrant) (by simpa using hcycle)

theorem State.serves_claim (c : Instr) (p : Party) (c0 c1 r0 r1 : Byte) (s : State) :
    State.Serves c s (claimRequest p c0 c1 r0 r1 s).1 := by
  unfold claimRequest
  split
  · exact .unchanged c s
  · rename_i hmode
    split
    · exact .unchanged c s
    · rename_i hstanding
      split
      · exact .unchanged c s
      · rename_i r swapped hrect
        split
        · exact .unchanged c s
        · rename_i hpending
          split
          · exact .unchanged c s
          · rename_i k hslot
            exact State.serves_placeClaim fun hopened =>
              ⟨not_not.mp hmode, hstanding, Params.rectLaw_of_rect hrect, by simpa using hpending, hslot, hopened,
                fun j hj => by cases hj⟩

/-- A source that is shiftable is HELD, and its party has no DRAINING claim (R103). -/
theorem State.held_of_shiftSource {s : State} {p : Party} {b : Byte} {k : SlotNo} (h : s.shiftSource p b = .ok k) :
    (∃ q l, s.slot p k = .held q l) ∧ s.drainOf p = none := by
  unfold State.shiftSource at h
  split at h
  · split at h <;> cases h
  · split at h
    · cases h
    · cases h
    · cases h
    · rename_i q l hslot
      split at h
      · cases h
      · rename_i hdrain
        cases h
        exact ⟨⟨q, l, hslot⟩, by simpa using hdrain⟩

theorem State.serves_shift (c : Instr) (p : Party) (source c0 c1 r0 r1 : Byte) (s : State) :
    State.Serves c s (shiftRequest p source c0 c1 r0 r1 s).1 := by
  unfold shiftRequest
  split
  · exact .unchanged c s
  · rename_i hmode
    split
    · exact .unchanged c s
    · rename_i hstanding
      split
      · exact .unchanged c s
      · rename_i src hsource
        split
        · exact .unchanged c s
        · rename_i r swapped hrect
          split
          · exact .unchanged c s
          · rename_i hpending
            split
            · exact .unchanged c s
            · rename_i k hslot
              refine State.serves_placeShift fun hopened =>
                ⟨not_not.mp hmode, hstanding, Params.rectLaw_of_rect hrect, by simpa using hpending, hslot, hopened,
                  fun j hj => ?_⟩
              cases hj
              exact State.held_of_shiftSource hsource

theorem State.serves_release (c : Instr) (p : Party) (slot : Byte) (s : State) :
    State.Serves c s (releaseRequest p slot s).1 := by
  have hordinary (k : SlotNo) : State.Serves c s (releaseOrdinary p k s).1 := by
    unfold releaseOrdinary
    split
    · exact .unchanged c s
    · rename_i r w l hslot
      exact .withdraws c p k _ s (by simp only [State.waiter, hslot]; rfl)
    · rename_i r l hslot
      split
      · exact .unchanged c s
      · exact .releases c p k s (by simp [hslot, Claim.heldRect])
    · rename_i r t hslot
      split
      · exact .unchanged c s
      · exact .releases c p k s (by simp [hslot, Claim.heldRect])
  have htrip (x : Arm) : State.Serves c s (releaseTripRequest x s).1 := by
    unfold releaseTripRequest
    split
    · exact .unchanged c s
    · split
      · exact .unchanged c s
      · exact .releasesTrip c x s
  unfold releaseRequest
  split
  · exact .unchanged c s
  · split
    · exact hordinary _
    · split
      · split
        · exact htrip _
        · exact .unchanged c s
      · exact .unchanged c s

theorem State.serves_block (tag : BitVec 4) (c0 c1 r0 r1 : Byte) (s : State) :
    State.Serves (.block tag c0 c1 r0 r1) s (blockRequest c0 c1 r0 r1 s).1 := by
  by_cases hmode : s.mode = .guarding
  · exact .blocks tag c0 c1 r0 r1 s hmode
  · rw [blockRequest, if_pos hmode]; exact .unchanged _ s

theorem State.serves_unblock (tag : BitVec 4) (c0 c1 r0 r1 : Byte) (s : State) :
    State.Serves (.unblock tag c0 c1 r0 r1) s (unblockRequest c0 c1 r0 r1 s).1 := by
  by_cases hmode : s.mode = .guarding
  · exact .unblocks tag c0 c1 r0 r1 s hmode
  · rw [unblockRequest, if_pos hmode]; exact .unchanged _ s

theorem State.serves_writeRow (tag : BitVec 4) (row start : Byte) (entries : List Byte) (s : State) :
    State.Serves (.writeRow tag row start entries) s (writeRowRequest row start entries s).1 := by
  by_cases hmode : s.mode = .setup
  · exact .writes tag row start entries s hmode
  · rw [writeRowRequest, if_pos hmode]; exact .unchanged _ s

theorem State.serves_setParam (tag : BitVec 4) (ident : Byte) (value : Word16) (s : State) :
    State.Serves (.setParam tag ident value) s (setParamRequest ident value s).1 := by
  by_cases hmode : s.mode = .setup
  · cases hrange : paramRange ident.toNat with
    | none => rw [setParamRequest_of_unknown hmode hrange]; exact .unchanged _ s
    | some range => rw [setParamRequest_of_known hmode hrange]; exact .sets tag ident value s hmode range hrange
  · rw [setParamRequest_of_not_setup hmode]; exact .unchanged _ s

theorem State.serves_start (tag : BitVec 4) (s : State) : State.Serves (.start tag) s (startRequest s).1 := by
  unfold startRequest
  split_ifs with hmode hline
  · exact .unchanged _ s
  · exact .unchanged _ s
  · exact .starts tag s (not_not.mp hmode) (by simpa using hline)

theorem State.serves_clearHalt (tag : BitVec 4) (s : State) :
    State.Serves (.clearHalt tag) s (clearHaltRequest s).1 := by
  unfold clearHaltRequest
  split_ifs with hmode hline
  · exact .unchanged _ s
  · exact .unchanged _ s
  · exact .clearsHalt tag s (not_not.mp hmode) (by simpa using hline)

/-- Reads and NOP leave the state as it was. -/
theorem Instr.command_unchanged_of_read {c : Instr}
    (h : (∃ p tag rep, c = .nop p tag rep) ∨ (∃ p tag rep row, c = .readRow p tag rep row) ∨
      (∃ p tag rep arm, c = .readTrip p tag rep arm) ∨ (∃ tag ident, c = .getParam tag ident) ∨
      (∃ tag party, c = .readClaims tag party) ∨ (∃ tag, c = .readQueue tag) ∨ ∃ tag arm, c = .readArm tag arm)
    (s : State) : (c.command s).1 = s := by
  rcases h with ⟨p, tag, rep, rfl⟩ | ⟨p, tag, rep, row, rfl⟩ | ⟨p, tag, rep, arm, rfl⟩ | ⟨tag, ident, rfl⟩ |
    ⟨tag, party, rfl⟩ | ⟨tag, rfl⟩ | ⟨tag, arm, rfl⟩
  · rfl
  · simp only [Instr.command, readRowRequest]; split <;> rfl
  · simp only [Instr.command, readTripRequest]; split <;> rfl
  · simp only [Instr.command, getParamRequest]; split <;> rfl
  · simp only [Instr.command, readClaimsRequest]; split <;> rfl
  · rfl
  · simp only [Instr.command, readArmRequest]; split <;> rfl

/-- What the command section of any request leaves is one of the cases of `State.Serves`. -/
theorem State.serves_command (c : Instr) (s : State) : State.Serves c s (c.command s).1 := by
  have hread (h : (c.command s).1 = s) : State.Serves c s (c.command s).1 := h.symm ▸ .unchanged c s
  cases c with
  | ack p tag rep codes => exact .acknowledges p tag rep codes s
  | join x tag rep epoch => exact serves_join x tag rep epoch s
  | leave x tag rep => exact serves_leave x tag rep s
  | clearTrip x tag rep => exact serves_clearTrip x tag rep s
  | evict tag arm => exact serves_evict tag arm s
  | claim p tag rep c0 c1 r0 r1 => exact serves_claim _ p c0 c1 r0 r1 s
  | shift p tag rep source c0 c1 r0 r1 => exact serves_shift _ p source c0 c1 r0 r1 s
  | release p tag rep slot => exact serves_release _ p slot s
  | block tag c0 c1 r0 r1 => exact serves_block tag c0 c1 r0 r1 s
  | unblock tag c0 c1 r0 r1 => exact serves_unblock tag c0 c1 r0 r1 s
  | writeRow tag row start entries => exact serves_writeRow tag row start entries s
  | setParam tag ident value => exact serves_setParam tag ident value s
  | start tag => exact serves_start tag s
  | stop tag =>
    by_cases hmode : s.mode = .setup
    · exact hread (by simp [Instr.command, stopRequest, hmode])
    · exact .stops tag s hmode
  | halt tag =>
    by_cases hmode : s.mode = .guarding
    · simpa [Instr.command, haltRequest, hmode] using State.Serves.halts tag s hmode
    · exact hread (by simp [Instr.command, haltRequest, hmode, refuse])
  | clearHalt tag => exact serves_clearHalt tag s
  | nop | readRow | readTrip | getParam | readClaims | readQueue | readArm =>
    exact hread (Instr.command_unchanged_of_read (by simp) s)
  | exchangeEnd | overrun | reportPeriodExpiry | waitLimitExpiry | yieldTime | haltLineAssertion | haltLineRelease
  | reset | resetRelease | frameCheckRefusal => exact .unchanged _ s

/-! ### Every command -/

/-- What a command can do: a request that is served after its report, with its reply placed; or an event. -/
inductive State.Does : Instr → State → State → Prop
  | nothing (c : Instr) (s : State) : Does c s s
  | serves (c : Instr) (q : Request) (s t : State) (a : Answer) (hq : c.request = some q)
      (htaken : s.taken q.port c = true) (h : State.Serves c (s.afterReport q.port q.rep) t)
      (ht : c.command (s.afterReport q.port q.rep) = (t, a)) :
      Does c s (t.placeReply q.port q.tag q.kind a)
  | heldExchange (p : Party) (f : Frame) (s : State) (hheld : s.held = true) (g : Frame) (n : Nat) :
      Does (.exchangeEnd p f) s { s.shifts p g with freeCount := s.freeCount + n }
  | emptyExchange (p : Party) (f : Frame) (s : State) (hheld : s.held = false) (hport : (s.port p).processing = none)
      (g : Frame) : Does (.exchangeEnd p f) s (s.shifts p g)
  | takes (p : Party) (f : Frame) (s : State) (hheld : s.held = false) (hport : (s.port p).processing = none)
      (g : Frame) : Does (.exchangeEnd p f) s
        ((s.shifts p g).setPort p { (s.shifts p g).port p with processing := some f, reported := false })
  | overruns (p : Party) (f : Frame) (s : State) (hport : (s.port p).processing.isSome = true) (g : Frame) :
      Does (.overrun p f) s ((s.shifts p g).raise p .portFault)
  | refuses (p : Party) (s : State) (tag : BitVec 4) (kind : Byte) (a : Answer)
      (hport : (s.port p).processing.isSome = true) :
      Does (.frameCheckRefusal p) s (s.placeReply p tag kind a)
  | periodExpires (x : Arm) (s : State) (h : (s.arm x).monitor.timer.isSome = true) :
      Does (.reportPeriodExpiry x) s (s.periodExpiry x)
  | waitExpires (p : Party) (k : SlotNo) (s : State) (w : Waiter) (hw : s.waiter ⟨p, k⟩ = some w) :
      Does (.waitLimitExpiry p k) s ((s.removePending ⟨p, k⟩).raise p (.expired k)).grantScan
  | yieldAsked (p : Party) (k : SlotNo) (s : State) (r : Rect) (w : Waiting) (l : Option SlotNo)
      (hslot : s.slot p k = .pending r w l) :
      Does (.yieldTime p k) s
        ((s.setSlot p k (.pending r ⟨w.arrival, max w.age (s.params.yieldPatience * 1000), true⟩ l)).raiseYield p k r)
  | heldLine (c : Instr) (hc : c = .haltLineAssertion ∨ c = .haltLineRelease) (s : State) (hheld : s.held = true)
      (b : Bool) : Does c s { s with haltPinLow := b }
  | lineAsserted (s : State) (hheld : s.held = false) :
      Does .haltLineAssertion s ({ s with haltPinLow := true } : State).assertLine
  | lineReleased (s : State) (hheld : s.held = false) :
      Does .haltLineRelease s { s with haltPinLow := false, haltLevel := false }
  | resets (s : State) :
      Does .reset s
        { State.reset with
          held := true, haltPinLow := s.haltPinLow, freeCount := s.freeCount, pending := s.pending }
  | released (s u : State) (hheld : s.held = true)
      (hu : u = if s.haltPinLow = true then ({ s with held := false } : State).assertLine
        else { s with held := false, haltLevel := false }) :
      Does .resetRelease s (((u.placeRestarted .A).placeRestarted .B).placeRestarted .C)

theorem State.does_exchangeEnd {p : Party} {f : Frame} {s t : State} (h : execExchangeEnd p f s = .next t) :
    State.Does (.exchangeEnd p f) s t := by
  unfold execExchangeEnd at h
  split at h
  · rename_i hheld
    cases h
    exact .heldExchange p f s hheld _ _
  · rename_i hheld
    split at h
    · cases h; exact .nothing _ s
    · rename_i hport
      dsimp only at h
      split at h
      · cases h; exact .emptyExchange p f s (by simpa using hheld) (by simpa using hport) _
      · cases h; exact .takes p f s (by simpa using hheld) (by simpa using hport) _

theorem State.does_overrun {p : Party} {f : Frame} {s t : State} (h : execOverrun p f s = .next t) :
    State.Does (.overrun p f) s t := by
  unfold execOverrun at h
  split at h
  · cases h; exact .nothing _ s
  · rename_i g hport
    cases h; exact .overruns p f s (by simp [hport]) _

theorem State.does_frameCheckRefusal {p : Party} {s t : State} (h : execFrameCheckRefusal p s = .next t) :
    State.Does (.frameCheckRefusal p) s t := by
  unfold execFrameCheckRefusal at h
  split at h
  · cases h; exact .nothing _ s
  · rename_i f hport
    split at h
    · cases h; exact .nothing _ s
    · cases h; exact .refuses p s _ _ _ (by simp [hport])

theorem State.does_timers {c : Instr} {s t : State}
    (hc : (∃ x, c = .reportPeriodExpiry x) ∨ (∃ p k, c = .waitLimitExpiry p k) ∨ ∃ p k, c = .yieldTime p k)
    (h : exec c s = .next t) : State.Does c s t := by
  rcases hc with ⟨x, rfl⟩ | ⟨p, k, rfl⟩ | ⟨p, k, rfl⟩
  · simp only [exec, execReportPeriodExpiry] at h
    split at h
    · cases h; exact .nothing _ s
    · rename_i htimer
      cases h; exact .periodExpires x s (by simp [htimer])
  · simp only [exec, execWaitLimitExpiry] at h
    split at h
    · rename_i r w l hslot
      split at h
      · cases h; exact .nothing _ s
      · cases h; exact .waitExpires p k s ⟨⟨p, k⟩, r, w, l⟩ (by simp only [State.waiter, hslot])
    · cases h; exact .nothing _ s
    · cases h; exact .nothing _ s
    · cases h; exact .nothing _ s
  · simp only [exec, execYieldTime] at h
    split at h
    · rename_i r w l hslot
      split at h
      · cases h; exact .nothing _ s
      · cases h; exact .yieldAsked p k s r w l hslot
    · cases h; exact .nothing _ s
    · cases h; exact .nothing _ s
    · cases h; exact .nothing _ s

theorem State.does_line {c : Instr} {s t : State} (hc : c = .haltLineAssertion ∨ c = .haltLineRelease)
    (h : exec c s = .next t) : State.Does c s t := by
  rcases hc with rfl | rfl
  · simp only [exec, execHaltLineAssertion] at h
    split at h
    · cases h; exact .heldLine _ (.inl rfl) s ‹_› true
    · cases h; exact .lineAsserted s (by simpa using ‹¬s.held = true›)
  · simp only [exec, execHaltLineRelease] at h
    split at h
    · cases h; exact .heldLine _ (.inr rfl) s ‹_› false
    · cases h; exact .lineReleased s (by simpa using ‹¬s.held = true›)

theorem State.does_resetRelease {s t : State} (h : execResetRelease s = .next t) : State.Does .resetRelease s t := by
  unfold execResetRelease at h
  split at h
  · rename_i hheld
    cases h; exact .released s _ hheld rfl
  · cases h; exact .nothing _ s

/-- What any command does is one of the cases of `State.Does`. -/
theorem State.does_of_exec {c : Instr} {s t : State} (h : exec c s = .next t) : State.Does c s t := by
  cases hq : c.request with
  | some q =>
    by_cases htaken : s.taken q.port c = true
    · rw [exec_of_taken hq htaken] at h
      cases h
      exact .serves c q s _ _ hq htaken (State.serves_command c _) rfl
    · rw [exec_of_not_taken hq (by simpa using htaken)] at h
      cases h
      exact .nothing c s
  | none =>
    cases c with
    | exchangeEnd p f => exact does_exchangeEnd h
    | overrun p f => exact does_overrun h
    | frameCheckRefusal p => exact does_frameCheckRefusal h
    | reportPeriodExpiry x => exact does_timers (.inl ⟨x, rfl⟩) h
    | waitLimitExpiry p k => exact does_timers (.inr (.inl ⟨p, k, rfl⟩)) h
    | yieldTime p k => exact does_timers (.inr (.inr ⟨p, k, rfl⟩)) h
    | haltLineAssertion => exact does_line (.inl rfl) h
    | haltLineRelease => exact does_line (.inr rfl) h
    | reset => cases h; exact .resets s
    | resetRelease => exact does_resetRelease h
    | _ => cases hq

/-- A law that every command keeps, and that the queue of commands, an idle report section and the passing of time leave, is
kept by every step. -/
theorem step_keeps {P : State → Prop} (hcommand : ∀ c s t, State.Does c s t → P s → P t)
    (hpending : ∀ (s : State) (rest : List Instr), P s → P { s with pending := rest })
    (hsection : ∀ (s : State) (x : Arm) (rep : Report), s.reportDue x = some rep → P s → P (s.takeSection x rep))
    (helapse : ∀ (s : State) (n : Nat), P s → P (s.elapse n)) {s t : State} (hs : P s) (h : step s = .next t) : P t := by
  unfold step at h
  split at h
  · obtain ⟨rep, hdue, hidle⟩ | ⟨rep, -, hdue, hidle⟩ | ⟨-, ⟨c, -, hidle⟩ | ⟨-, hidle⟩⟩ := idle_cases s <;> rw [hidle] at h
    · cases h; exact hsection s .A rep hdue hs
    · cases h; exact hsection s .B rep hdue hs
    · exact hcommand c s t (State.does_of_exec h) hs
    · cases h; exact helapse s _ hs
  · exact hcommand _ _ t (State.does_of_exec h) (hpending s _ hs)

end Sys2Proof.Machine
end

section
/-! SUPPORT. The law of the attention sets (R169) over every move, every command and every step. -/

namespace Sys2Proof.Machine

open Sys2Proof

/-- The law of the attention sets of all three ports. -/
abbrev State.AttentionLaws (s : State) : Prop := ∀ p, s.AttentionLaw p

namespace State.AttentionLaws

variable {s t : State}

/-- What leaves every set and line keeps the law. -/
theorem of_sets (h : s.AttentionLaws) (ht : ∀ p, (t.port p).attention = (s.port p).attention ∧ (t.port p).line = (s.port p).line) :
    t.AttentionLaws :=
  fun p => Port.Law.of_eq (h p) (ht p).1 (ht p).2

/-- What leaves every port keeps the law. -/
theorem of_ports (h : s.AttentionLaws) (ht : ∀ p, t.port p = s.port p) : t.AttentionLaws :=
  h.of_sets fun p => by rw [ht p]; exact ⟨rfl, rfl⟩

theorem raise (h : s.AttentionLaws) (p : Party) (n : Notice) (hn : n.allowedAt p = true) : (s.raise p n).AttentionLaws :=
  State.raise_keeps_attention h hn

theorem lowerClosing (h : s.AttentionLaws) (n : Nat) : (s.lowerClosing n).AttentionLaws := by
  have hcount : State.AttentionLaws { s with closing := s.closing - n } := h.of_ports fun p => by cases p <;> rfl
  unfold State.lowerClosing
  split
  · exact hcount.raise .C .blockDone (Notice.allowedAt_C (by simp [Notice.code]))
  · exact hcount

theorem dropHolds (h : s.AttentionLaws) (f : Tile → Bool) : (s.dropHolds f).AttentionLaws :=
  lowerClosing (h.of_ports fun p => by cases p <;> rfl) _

theorem releaseSlot (h : s.AttentionLaws) (p : Party) (k : SlotNo) : (s.releaseSlot p k).1.AttentionLaws := by
  unfold State.releaseSlot
  split
  · exact h
  · rename_i r _
    exact (h.dropHolds r.contains).of_ports fun q => by simp

theorem grant (h : s.AttentionLaws) (n : ClaimName) (r : Rect) (l : Option SlotNo) : (s.grant n r l).1.AttentionLaws := by
  have hheld : (((s.addHolds n.party r.contains).dequeue n).setSlot n.party n.slot (.held r l)).AttentionLaws :=
    h.of_ports fun p => by simp
  unfold State.grant
  split
  · exact hheld
  · split
    · exact hheld.releaseSlot .C _
    · exact hheld.of_ports (port_startDrain _ .A _ n.slot)
    · exact hheld.of_ports (port_startDrain _ .B _ n.slot)

theorem tripBegin (h : s.AttentionLaws) (x : Arm) (c : Cause) (own : Bool) (tile : Option Tile) :
    (s.tripBegin x c own tile).AttentionLaws := by
  have hguard : (s.tripGuard x c own tile).AttentionLaws := h.of_ports (port_tripGuard s x c own tile)
  have hcancel : ((s.tripGuard x c own tile).cancelPending x.party .trip).AttentionLaws := by
    unfold State.cancelPending
    split
    · exact (hguard.of_ports (port_removePending _ _)).raise x.party _ (Notice.allowedAt_of_code_le _ (by simp [Notice.code]))
    · exact hguard
  exact hcancel.of_ports (port_buildTripClaim _ x)

/-- Every move keeps the law. -/
theorem move (hmove : s.Move t) (h : s.AttentionLaws) : t.AttentionLaws := by
  cases hmove with
  | raise p n hn => exact h.raise p n hn
  | monitor x m => exact h.of_ports (s.port_setMonitor x m)
  | evaluation x rep m e => exact h.of_ports (s.port_setEvaluation x (some e))
  | guard x g => exact h.of_ports (s.port_setGuard x g)
  | remove n => exact h.of_ports (port_removePending s n)
  | release p k => exact h.releaseSlot p k
  | releaseTrip x => exact (h.dropHolds (s.inTrip x)).of_ports fun p => by simp [State.releaseTrip]
  | grant n w => exact h.grant n w.rect w.link
  | trip x c own tile => exact h.tripBegin x c own tile

theorem moves (h : s.AttentionLaws) (hmoves : s.Moves t) : t.AttentionLaws := hmoves.keeps (fun _ _ => move) h

/-! ### Requests -/

theorem goOffline (h : s.AttentionLaws) (x : Arm) : (s.goOffline x).AttentionLaws := h.of_ports (port_goOffline s x)

theorem evicts (h : s.AttentionLaws) (x : Arm) : (s.evicts x).1.AttentionLaws :=
  goOffline (h.moves ((State.Moves.refl s).evictClaims x).grantScan) x |>.raise x.party _
    (Notice.allowedAt_arm x (by simp [Notice.code]))

theorem settleShift (h : s.AttentionLaws) (p : Party) (k source : SlotNo) (r : Rect) :
    (s.settleShift p k source r).1.AttentionLaws := by
  have hgrant := h.grant ⟨p, k⟩ r (some source)
  unfold State.settleShift
  dsimp only
  split
  · exact hgrant.moves (State.Moves.refl _).grantScan
  · exact hgrant
  · split
    · exact hgrant
    · split
      · exact (hgrant.releaseSlot p source).moves (State.Moves.refl _).grantScan
      · exact hgrant

/-- BLOCK tells the parties of the claims it withdraws (R94). -/
theorem withdrawAll (h : s.AttentionLaws) (f : Tile → Bool) (l : List ClaimName) : (l.foldl (withdrawOver f) s).AttentionLaws := by
  refine List.foldlRecOn (motive := State.AttentionLaws) l (withdrawOver f) h fun u hu n _ => ?_
  unfold withdrawOver
  split
  · exact hu
  · split
    · exact hu
    · exact (hu.of_ports (port_removePending u n)).raise n.party _ (Notice.allowedAt_of_code_le _ (by simp [Notice.code]))

theorem blockRequest (h : s.AttentionLaws) (c0 c1 r0 r1 : Byte) : (blockRequest c0 c1 r0 r1 s).1.AttentionLaws := by
  unfold Machine.blockRequest
  split
  · exact h
  · split
    · exact h
    · dsimp only
      generalize htiles : ({ s with tiles := _, closing := _ } : State) = u
      have hu : u.AttentionLaws := h.of_ports fun p => by subst htiles; cases p <;> rfl
      split
      · exact (hu.withdrawAll _ _).moves (State.Moves.refl _).grantScan
      · exact hu.withdrawAll _ _

theorem unblockRequest (h : s.AttentionLaws) (c0 c1 r0 r1 : Byte) : (unblockRequest c0 c1 r0 r1 s).1.AttentionLaws := by
  unfold Machine.unblockRequest
  split
  · exact h
  · split
    · exact h
    · exact (lowerClosing (h.of_ports fun p => by cases p <;> rfl) _).moves (State.Moves.refl _).grantScan

theorem stopRequest (h : s.AttentionLaws) : (stopRequest s).1.AttentionLaws := by
  have hclear : s.clearClaims.AttentionLaws := by
    unfold State.clearClaims
    dsimp only
    split
    · exact raise (h.of_ports fun p => by cases p <;> rfl) .C .blockDone (Notice.allowedAt_C (by simp [Notice.code]))
    · exact h.of_ports fun p => by cases p <;> rfl
  unfold Machine.stopRequest
  split
  · exact h
  · have hmode : State.AttentionLaws { ((s.clearClaims.goOffline .A).goOffline .B) with mode := .setup } :=
      ((hclear.goOffline .A).goOffline .B).of_ports fun p => by cases p <;> rfl
    exact (hmode.raise .A _ (Notice.allowedAt_arm .A (by simp [Notice.code]))).raise .B _
      (Notice.allowedAt_arm .B (by simp [Notice.code]))

/-! ### The halt (R152, R153) -/

theorem haltCell (h : s.AttentionLaws) (src : HaltSource) : (s.haltCell src).AttentionLaws := by
  have hmode : State.AttentionLaws { s with mode := .halted } := h.of_ports fun p => by cases p <;> rfl
  have hmoves := hmode.moves ((((((((State.Moves.refl _).cancelPending .A .halt).cancelPending .B .halt).cancelPending
    .C .halt).haltArm .A).haltArm .B).grantScan))
  have hhalted (p : Party) : (Notice.halted src).allowedAt p = true := Notice.allowedAt_of_code_eq p (.inl rfl)
  exact ((hmoves.raise .A _ (hhalted .A)).raise .B _ (hhalted .B)).raise .C _ (hhalted .C)

theorem assertLine (h : s.AttentionLaws) : s.assertLine.AttentionLaws := by
  have hlevel : State.AttentionLaws { s with haltLevel := true } := h.of_ports fun p => by cases p <;> rfl
  have hline := hlevel.raise .C (.haltLine s.mode) (Notice.allowedAt_C (by simp [Notice.code]))
  unfold State.assertLine
  dsimp only
  split
  · exact hline.haltCell .line
  · exact hline

/-! ### Every command -/

theorem serves {c : Instr} (hserves : State.Serves c s t) (h : s.AttentionLaws) : t.AttentionLaws := by
  cases hserves with
  | unchanged => exact h
  | acknowledges p tag rep codes =>
    intro r
    by_cases hr : r = p
    · subst hr
      have := Port.Law.acknowledge (h r) codes
      simpa [State.AttentionLaw] using this
    · simpa [State.AttentionLaw, State.port_setPort_of_ne s _ hr] using h r
  | joins x => exact h.of_ports fun p => by simp [State.joins]
  | leaves x => exact h.goOffline x
  | rearms x => exact h.of_ports (s.port_setGuard x _)
  | evicts x => exact h.evicts x
  | grants _ p k r => exact h.grant _ r none
  | shifts _ p k source r => exact h.settleShift p k source r
  | queues _ p k r link => exact h.of_ports (port_enqueue s p k r link)
  | withdraws _ p k => exact (h.of_ports (port_removePending s _)).moves (State.Moves.refl _).grantScan
  | releases _ p k => exact (h.releaseSlot p k).moves (State.Moves.refl _).grantScan
  | releasesTrip _ x => exact (move (.releaseTrip s x) h).moves (State.Moves.refl _).grantScan
  | blocks tag c0 c1 r0 r1 => exact h.blockRequest c0 c1 r0 r1
  | unblocks tag c0 c1 r0 r1 => exact h.unblockRequest c0 c1 r0 r1
  | writes tag row start entries =>
    refine h.of_ports fun p => ?_
    unfold writeRowRequest
    split_ifs <;> cases p <;> rfl
  | sets => exact h.of_ports fun p => by cases p <;> rfl
  | starts => exact h.of_ports fun p => by cases p <;> rfl
  | stops => exact h.stopRequest
  | halts => exact h.haltCell .request
  | clearsHalt => exact h.of_ports fun p => by cases p <;> rfl

theorem placeReply (h : s.AttentionLaws) (p : Party) (tag : BitVec 4) (kind : Byte) (a : Answer) :
    (s.placeReply p tag kind a).AttentionLaws :=
  h.of_sets fun r => ⟨(s.placeReply_attention p r tag kind a).1, (s.placeReply_attention p r tag kind a).2.1⟩

theorem placeRestarted (h : s.AttentionLaws) (p : Party) : (s.placeRestarted p).AttentionLaws :=
  h.of_sets fun r => by cases p <;> cases r <;> exact ⟨rfl, rfl⟩

theorem shifts (h : s.AttentionLaws) (p : Party) (f : Frame) : (s.shifts p f).AttentionLaws :=
  h.of_sets fun r => by cases p <;> cases r <;> exact ⟨rfl, rfl⟩

theorem raiseYield (h : s.AttentionLaws) (p : Party) (k : SlotNo) (r : Rect) : (s.raiseYield p k r).AttentionLaws := by
  refine List.foldlRecOn (motive := State.AttentionLaws) parties _ h fun u hu y _ => ?_
  split
  · exact hu.raise y _ (Notice.allowedAt_of_code_le _ (by simp [Notice.code]))
  · exact hu

theorem does {c : Instr} (hdoes : State.Does c s t) (h : s.AttentionLaws) : t.AttentionLaws := by
  cases hdoes with
  | nothing => exact h
  | serves _ q _ u a hq htaken hu =>
    exact placeReply (serves hu (h.moves ((State.Moves.refl s).afterReport q.port q.rep))) q.port q.tag q.kind a
  | heldExchange p f _ hheld g n => exact (h.shifts p g).of_ports fun r => by cases r <;> rfl
  | emptyExchange p f _ hheld hport g => exact h.shifts p g
  | takes p f _ hheld hport g => exact (h.shifts p g).of_sets fun r => by cases p <;> cases r <;> exact ⟨rfl, rfl⟩
  | overruns p f _ hport g => exact (h.shifts p g).raise p _ (Notice.allowedAt_of_code_eq p (.inr rfl))
  | refuses p _ tag kind a => exact h.placeReply p tag kind a
  | periodExpires x _ hx => exact h.moves ((State.Moves.refl s).periodExpiry x hx)
  | waitExpires p k _ w hw =>
    exact ((h.of_ports (port_removePending s _)).raise p (.expired k)
      (Notice.allowedAt_of_code_le _ (by simp [Notice.code]))).moves (State.Moves.refl _).grantScan
  | yieldAsked p k _ r w l => exact raiseYield (h.of_ports (s.port_setSlot p k _)) p k r
  | heldLine => exact h.of_ports fun p => by cases p <;> rfl
  | lineAsserted => exact assertLine (h.of_ports fun p => by cases p <;> rfl)
  | lineReleased => exact h.of_ports fun p => by cases p <;> rfl
  | resets => intro p; cases p <;> simp [State.AttentionLaw, State.port, State.reset, Port.initial]
  | released _ u hheld hu =>
    have hlaw : u.AttentionLaws := by
      rw [hu]
      split
      · exact assertLine (h.of_ports fun p => by cases p <;> rfl)
      · exact h.of_ports fun p => by cases p <;> rfl
    exact ((hlaw.placeRestarted .A).placeRestarted .B).placeRestarted .C

theorem takeSection (h : s.AttentionLaws) (x : Arm) (rep : Report) : (s.takeSection x rep).AttentionLaws :=
  (h.moves ((State.Moves.refl s).takeReport x.party (some rep))).of_sets fun r => by
    cases x <;> cases r <;> exact ⟨rfl, rfl⟩

end State.AttentionLaws

/-- Settles O57: every command and every idle step raises notices of the port's own kinds, or acknowledges. -/
theorem stepKeepsAttentionLaw : Obligations.StepKeepsAttentionLaw := by
  unfold Obligations.StepKeepsAttentionLaw
  intro s t hs h
  exact step_keeps (P := State.AttentionLaws) (fun c s t hdoes => State.AttentionLaws.does hdoes)
    (fun s rest hs => State.AttentionLaws.of_ports hs fun p => by cases p <;> rfl)
    (fun s x rep _ hs => State.AttentionLaws.takeSection hs x rep)
    (fun s n hs => State.AttentionLaws.of_ports hs fun p => by cases p <;> rfl) hs h

end Sys2Proof.Machine
end

section
/-! SUPPORT. The law of the claim queue (R80 to R82) over every move, every command and every step. -/

namespace Sys2Proof.Machine

open Sys2Proof

/-! ### What moves leave alone -/

/-- No move changes the control fields, the pins or the commands that wait. -/
theorem State.Move.control {s t : State} (h : s.Move t) :
    t.mode = s.mode ∧ t.epoch = s.epoch ∧ t.params = s.params ∧ t.haltLevel = s.haltLevel ∧ t.held = s.held ∧
    t.haltPinLow = s.haltPinLow ∧ t.freeCount = s.freeCount ∧ t.pending = s.pending := by
  cases h <;> simp

theorem State.Moves.control {s t : State} (h : s.Moves t) :
    t.mode = s.mode ∧ t.epoch = s.epoch ∧ t.params = s.params ∧ t.haltLevel = s.haltLevel ∧ t.held = s.held ∧
    t.haltPinLow = s.haltPinLow ∧ t.freeCount = s.freeCount ∧ t.pending = s.pending := by
  refine h.keeps (P := fun t => t.mode = s.mode ∧ t.epoch = s.epoch ∧ t.params = s.params ∧ t.haltLevel = s.haltLevel ∧
    t.held = s.held ∧ t.haltPinLow = s.haltPinLow ∧ t.freeCount = s.freeCount ∧ t.pending = s.pending) ?_ (by simp)
  intro a b hmove ha
  simpa [hmove.control] using ha

theorem State.Moves.mode_eq {s t : State} (h : s.Moves t) : t.mode = s.mode := h.control.1

theorem State.Moves.params_eq {s t : State} (h : s.Moves t) : t.params = s.params := h.control.2.2.1

/-! ### Arrival numbers -/

/-- The arrival number of a PENDING claim (R81). -/
def Claim.arrival : Claim → Option Nat
  | .pending _ w _ => some w.arrival
  | .empty => none
  | .held .. => none
  | .draining .. => none

@[simp] theorem Claim.arrival_isSome {c : Claim} : c.arrival.isSome = true ↔ c.state = .pending := by
  cases c <;> simp [Claim.arrival, Claim.state]

theorem Claim.arrival_eq_none {c : Claim} : c.arrival = none ↔ c.state ≠ .pending := by
  cases c <;> simp [Claim.arrival, Claim.state]

@[simp] theorem Claim.arrival_unlink (k : SlotNo) (c : Claim) : (c.unlink k).arrival = c.arrival := by
  match c with
  | .empty => rfl
  | .pending r w none => rfl
  | .pending r w (some j) => rfl
  | .held r none => rfl
  | .held r (some j) => rfl
  | .draining r j => by_cases h : j = k <;> simp [Claim.unlink, Claim.arrival, h]

/-- A claim that holds tiles does not wait. -/
theorem Claim.arrival_of_heldRect {c : Claim} (h : c.heldRect.isSome = true) : c.arrival = none := by
  cases c <;> simp_all [Claim.heldRect, Claim.arrival]

/-- The arrival number of the claim that a name names. -/
def State.arrivalOf (s : State) (n : ClaimName) : Option Nat := (s.slot n.party n.slot).arrival

theorem State.arrivalOf_eq_waiter (s : State) (n : ClaimName) :
    s.arrivalOf n = (s.waiter n).map fun w => w.wait.arrival := by
  unfold State.arrivalOf State.waiter
  cases s.slot n.party n.slot <;> rfl

/-- The arrival numbers along the queue. -/
theorem State.map_arrival_waiters (s : State) :
    (s.waiters.map fun w => w.wait.arrival) = s.queue.filterMap s.arrivalOf := by
  rw [State.waiters, List.map_filterMap]
  exact congrArg (fun f => s.queue.filterMap f) (funext fun n => (s.arrivalOf_eq_waiter n).symm)

/-! ### The order of the queue -/

/-- The queue names exactly the PENDING claims, at most one of each party, in order of arrival (R80, R81). -/
structure State.QueueOrder (s : State) : Prop where
  nodup : (s.queue.map ClaimName.party).Nodup
  pending : ∀ n, n ∈ s.queue ↔ (s.arrivalOf n).isSome = true
  sorted : (s.queue.filterMap s.arrivalOf).Pairwise (· < ·)

theorem State.queueLaw_iff {s : State} : s.QueueLaw ↔ s.QueueOrder ∧ (s.mode ≠ .guarding → s.queue = []) := by
  constructor
  · rintro ⟨hnodup, hpending, hsorted, hmode⟩
    refine ⟨⟨hnodup, fun n => ?_, s.map_arrival_waiters ▸ hsorted⟩, hmode⟩
    simpa [State.arrivalOf] using hpending n.party n.slot
  · rintro ⟨⟨hnodup, hpending, hsorted⟩, hmode⟩
    refine ⟨hnodup, fun p k => ?_, s.map_arrival_waiters ▸ hsorted, hmode⟩
    simpa [State.arrivalOf] using hpending ⟨p, k⟩

namespace State.QueueOrder

variable {s t : State}

/-- Claims that leave the queue and their slots leave the others in order. -/
theorem of_filter (h : s.QueueOrder) (keep : ClaimName → Bool) (hqueue : t.queue = s.queue.filter keep)
    (hslots : ∀ n, t.arrivalOf n = if keep n = true then s.arrivalOf n else none) : t.QueueOrder := by
  refine ⟨?_, fun n => ?_, ?_⟩
  · rw [hqueue]; exact h.nodup.sublist (List.filter_sublist.map _)
  · rw [hqueue, hslots, List.mem_filter, h.pending]
    split <;> simp_all
  · have harrivals : (s.queue.filter keep).filterMap t.arrivalOf = (s.queue.filter keep).filterMap s.arrivalOf :=
      List.filterMap_congr fun n hn => by rw [hslots, if_pos (List.mem_filter.mp hn).2]
    rw [hqueue, harrivals]
    exact h.sorted.sublist (List.filter_sublist.filterMap _)

/-- What keeps the queue and the arrival numbers keeps the order. -/
theorem of_arrivals (h : s.QueueOrder) (hqueue : t.queue = s.queue) (hslots : ∀ n, t.arrivalOf n = s.arrivalOf n) :
    t.QueueOrder :=
  h.of_filter (fun _ => true) (by simp [hqueue]) fun n => by simp [hslots n]

/-- What keeps the queue and every ordinary slot keeps the order. -/
theorem of_slots (h : s.QueueOrder) (hqueue : t.queue = s.queue) (hslots : ∀ p k, t.slot p k = s.slot p k) :
    t.QueueOrder :=
  h.of_arrivals hqueue fun n => by simp [State.arrivalOf, hslots]

/-- A queue entry is a waiting claim. -/
theorem waiter_isSome (h : s.QueueOrder) {n : ClaimName} (hn : n ∈ s.queue) : ∃ w, s.waiter n = some w := by
  have := (h.pending n).mp hn
  rw [State.arrivalOf_eq_waiter, Option.isSome_map] at this
  exact Option.isSome_iff_exists.mp this

/-- Two entries of one party are the same entry. -/
theorem eq_of_party (h : s.QueueOrder) {m n : ClaimName} (hm : m ∈ s.queue) (hn : n ∈ s.queue) (hp : m.party = n.party) :
    m = n :=
  List.inj_on_of_nodup_map h.nodup hm hn hp

/-- A party without a PENDING claim has no queue entry. -/
theorem party_ne_of_pendingOf_none (h : s.QueueOrder) {p : Party} (hp : s.pendingOf p = none) {n : ClaimName}
    (hn : n ∈ s.queue) : n.party ≠ p := by
  obtain ⟨w, hw⟩ := h.waiter_isSome hn
  have hname := (State.waiter_eq_some.mp hw).1
  have hmem : w ∈ s.waiters := State.mem_waiters.mpr (by rw [hname]; exact ⟨hn, (State.waiter_eq_some.mp hw).2⟩)
  exact hname ▸ State.pendingOf_none.mp hp w hmem

/-! ### Removals and grants -/

theorem removePending (h : s.QueueOrder) (n : ClaimName) : (s.removePending n).QueueOrder :=
  h.of_filter (· ≠ n) (by simp) fun m => by
    obtain ⟨p, k⟩ := m
    obtain ⟨q, j⟩ := n
    simp only [State.arrivalOf, State.slot_removePending, ClaimName.mk.injEq, ne_eq, decide_not, Bool.not_eq_true',
      decide_eq_false_iff_not]
    by_cases hn : p = q ∧ k = j
    · simp [hn, Claim.arrival]
    · simp [hn]

theorem cancelPending (h : s.QueueOrder) (p : Party) (c : CancelCause) : (s.cancelPending p c).QueueOrder := by
  unfold State.cancelPending
  split
  · rename_i w _
    exact (h.removePending w.name).of_slots (by simp) fun q k => by simp
  · exact h

theorem dropHolds (h : s.QueueOrder) (f : Tile → Bool) : (s.dropHolds f).QueueOrder :=
  h.of_slots (by simp) fun q k => by simp

theorem arrivalOf_releaseSlot (s : State) (p : Party) (k : SlotNo) (n : ClaimName) :
    (s.releaseSlot p k).1.arrivalOf n = s.arrivalOf n := by
  by_cases hheld : (s.slot p k).heldRect.isSome = true
  · simp only [State.arrivalOf, State.slot_releaseSlot s p n.party k n.slot hheld]
    split_ifs with hp hk
    · rw [hp, hk, Claim.arrival_of_heldRect hheld]; rfl
    · rw [hp, Claim.arrival_unlink]
    · rfl
  · rw [State.releaseSlot_none (by simpa using hheld)]

theorem releaseSlot (h : s.QueueOrder) (p : Party) (k : SlotNo) : (s.releaseSlot p k).1.QueueOrder :=
  h.of_arrivals (by simp) (arrivalOf_releaseSlot s p k)

theorem arrivalOf_startDrain (s : State) (p : Party) (i j : SlotNo) (n : ClaimName) :
    (s.startDrain p i j).arrivalOf n = s.arrivalOf n := by
  unfold State.startDrain
  split
  · rename_i r l hslot
    simp only [State.arrivalOf, State.slot_setSlot_eq]
    split_ifs with hn
    · rw [hn.1, hn.2, hslot]; rfl
    · rfl
  · rfl

/-- The arrival numbers after a grant: that of the claim granted is gone (R67). -/
theorem arrivalOf_grant (s : State) (n : ClaimName) (r : Rect) (l : Option SlotNo) (m : ClaimName) :
    (s.grant n r l).1.arrivalOf m = if m = n then none else s.arrivalOf m := by
  have hheld : (((s.addHolds n.party r.contains).dequeue n).setSlot n.party n.slot (.held r l)).arrivalOf m =
      if m = n then none else s.arrivalOf m := by
    obtain ⟨p, k⟩ := m
    obtain ⟨q, j⟩ := n
    simp only [State.arrivalOf, State.slot_setSlot_eq, ClaimName.mk.injEq]
    split_ifs <;> simp [Claim.arrival]
  unfold State.grant
  split
  · exact hheld
  · split
    · exact (arrivalOf_releaseSlot _ _ _ m).trans hheld
    · exact (arrivalOf_startDrain _ _ _ _ m).trans hheld
    · exact (arrivalOf_startDrain _ _ _ _ m).trans hheld

theorem queue_grant (s : State) (n : ClaimName) (r : Rect) (l : Option SlotNo) :
    (s.grant n r l).1.queue = s.queue.filter (· ≠ n) := by
  unfold State.grant
  split
  · simp [State.dequeue]
  · split <;> simp [State.dequeue]

theorem grant (h : s.QueueOrder) (n : ClaimName) (r : Rect) (l : Option SlotNo) : (s.grant n r l).1.QueueOrder :=
  h.of_filter (· ≠ n) (queue_grant s n r l) fun m => by
    rw [arrivalOf_grant]
    by_cases hm : m = n <;> simp [hm]

theorem buildTripClaim (h : s.QueueOrder) (x : Arm) : (s.buildTripClaim x).QueueOrder :=
  h.of_slots (by simp) fun p k => by simp [State.buildTripClaim]

theorem tripBegin (h : s.QueueOrder) (x : Arm) (c : Cause) (own : Bool) (tile : Option Tile) :
    (s.tripBegin x c own tile).QueueOrder :=
  buildTripClaim (cancelPending (h.of_slots (by simp) fun p k => by simp) x.party .trip) x

/-- Every move keeps the order. -/
theorem move (hmove : s.Move t) (h : s.QueueOrder) : t.QueueOrder := by
  cases hmove with
  | raise p n => exact h.of_slots (by simp) fun q k => by simp
  | monitor x m => exact h.of_slots (by simp) fun q k => by simp
  | evaluation x rep m e => exact h.of_slots (by simp) fun q k => by simp
  | guard x g => exact h.of_slots (by simp) fun q k => by simp
  | remove n => exact h.removePending n
  | release p k => exact h.releaseSlot p k
  | releaseTrip x => exact (h.dropHolds (s.inTrip x)).of_slots (by simp) fun q k => by simp [State.releaseTrip]
  | grant n w => exact h.grant n w.rect w.link
  | trip x c own tile => exact h.tripBegin x c own tile

theorem moves (h : s.QueueOrder) (hmoves : s.Moves t) : t.QueueOrder := hmoves.keeps (fun _ _ => move) h

/-- A claim that enters at the tail, with a number above the others, of a party without a PENDING claim (R80, R81). -/
theorem enqueue (h : s.QueueOrder) {p : Party} {k : SlotNo} (r : Rect) (link : Option SlotNo)
    (hpending : s.pendingOf p = none) : (s.enqueue p k r link).QueueOrder := by
  have hnot (n : ClaimName) (hn : n ∈ s.queue) : n.party ≠ p := h.party_ne_of_pendingOf_none hpending hn
  have harrival (n : ClaimName) : (s.enqueue p k r link).arrivalOf n =
      if n = ⟨p, k⟩ then some s.nextArrival else s.arrivalOf n := by
    obtain ⟨q, j⟩ := n
    simp only [State.arrivalOf, State.slot_enqueue, ClaimName.mk.injEq]
    split_ifs <;> rfl
  refine ⟨?_, fun n => ?_, ?_⟩
  · rw [State.queue_enqueue, List.map_append, List.nodup_append]
    refine ⟨h.nodup, by simp, fun a ha b hb => ?_⟩
    obtain ⟨n, hn, rfl⟩ := List.mem_map.mp ha
    simpa [List.mem_singleton.mp hb] using hnot n hn
  · rw [State.queue_enqueue, List.mem_append, List.mem_singleton, h.pending, harrival]
    split_ifs with hn <;> simp [hn]
  · have hold : s.queue.filterMap (s.enqueue p k r link).arrivalOf = s.queue.filterMap s.arrivalOf :=
      List.filterMap_congr fun n hn => by
        rw [harrival, if_neg]
        rintro rfl
        exact hnot _ hn rfl
    rw [State.queue_enqueue, List.filterMap_append, hold, List.pairwise_append]
    refine ⟨h.sorted, by simp [harrival], fun a ha b hb => ?_⟩
    have hb' : b = s.nextArrival := by simpa [harrival, eq_comm] using hb
    rw [← State.map_arrival_waiters] at ha
    obtain ⟨w, hw, rfl⟩ := List.mem_map.mp ha
    exact hb' ▸ State.nextArrival_gt hw

end State.QueueOrder

/-- The entries that a cancellation leaves are those of the other parties (R95 to R97). -/
theorem State.QueueOrder.queue_cancelPending {s : State} (h : s.QueueOrder) (p : Party) (c : CancelCause) :
    (s.cancelPending p c).queue = s.queue.filter fun n => n.party ≠ p := by
  unfold State.cancelPending
  split
  · rename_i w hw
    obtain ⟨hmem, hparty⟩ := State.pendingOf_some hw
    have hentry := (State.mem_waiters.mp hmem).1
    simp only [State.raise_frame, State.queue_removePending]
    refine List.filter_congr fun n hn => decide_eq_decide.mpr (not_congr ⟨?_, fun hp => ?_⟩)
    · rintro rfl; exact hparty
    · exact h.eq_of_party hn hentry (hp.trans hparty.symm)
  · rename_i hnone
    exact (List.filter_eq_self.mpr fun n hn => by simpa using h.party_ne_of_pendingOf_none hnone hn).symm

/-- A run of moves takes entries from the queue and adds none. -/
theorem State.Move.queue_sublist {s t : State} (h : s.Move t) : t.queue.Sublist s.queue := by
  cases h with
  | remove n => rw [State.queue_removePending]; exact List.filter_sublist
  | grant n w => rw [State.QueueOrder.queue_grant]; exact List.filter_sublist
  | trip x c own tile =>
    simp only [State.tripBegin, State.buildTripClaim_frame]
    unfold State.cancelPending
    split
    · simp only [State.raise_frame, State.queue_removePending, State.tripGuard_frame]; exact List.filter_sublist
    · simp
  | _ => simp

theorem State.Moves.queue_sublist {s t : State} (h : s.Moves t) : t.queue.Sublist s.queue :=
  h.keeps (P := fun t => t.queue.Sublist s.queue) (fun _ _ hmove ha => hmove.queue_sublist.trans ha) (List.Sublist.refl _)

/-! ### The law over every command -/

namespace State.QueueLaw

variable {s t : State}

theorem order (h : s.QueueLaw) : s.QueueOrder := (State.queueLaw_iff.mp h).1

theorem of_order (horder : t.QueueOrder) (hmode : t.mode ≠ .guarding → t.queue = []) : t.QueueLaw :=
  State.queueLaw_iff.mpr ⟨horder, hmode⟩

theorem moves (h : s.QueueLaw) (hmoves : s.Moves t) : t.QueueLaw :=
  of_order (h.order.moves hmoves) fun hmode => by
    have := (State.queueLaw_iff.mp h).2 (hmoves.mode_eq ▸ hmode)
    simpa [this] using hmoves.queue_sublist

/-- What keeps the mode, the queue and the ordinary slots keeps the law. -/
theorem of_slots (h : s.QueueLaw) (hmode : t.mode = s.mode) (hqueue : t.queue = s.queue)
    (hslots : ∀ p k, t.slot p k = s.slot p k) : t.QueueLaw :=
  of_order (h.order.of_slots hqueue hslots) fun hm => by
    rw [hqueue]; exact (State.queueLaw_iff.mp h).2 (hmode ▸ hm)

/-- A queue that is empty, with no PENDING slot. -/
theorem of_empty (hqueue : t.queue = []) (hslots : ∀ p k, (t.slot p k).state ≠ .pending) : t.QueueLaw := by
  refine ⟨by simp [hqueue], fun p k => ?_, by simp [State.waiters, hqueue], fun _ => hqueue⟩
  simp [hqueue, hslots p k]

/-- Where the queue is empty, the mode makes no difference. -/
theorem of_mode (h : s.QueueLaw) (hempty : s.queue = [] ∨ t.mode = .guarding) (hqueue : t.queue = s.queue)
    (hslots : ∀ p k, t.slot p k = s.slot p k) : t.QueueLaw :=
  of_order (h.order.of_slots hqueue hslots) fun hm => by
    obtain hempty | hguarding := hempty
    · rw [hqueue, hempty]
    · exact absurd hguarding hm

theorem raise (h : s.QueueLaw) (p : Party) (n : Notice) : (s.raise p n).QueueLaw :=
  h.of_slots (by simp) (by simp) fun q k => by simp

theorem grant (h : s.QueueLaw) (n : ClaimName) (r : Rect) (l : Option SlotNo) : (s.grant n r l).1.QueueLaw :=
  of_order (h.order.grant n r l) fun hm => by
    rw [QueueOrder.queue_grant, (State.queueLaw_iff.mp h).2 (by simpa using hm)]; rfl

theorem releaseSlot (h : s.QueueLaw) (p : Party) (k : SlotNo) : (s.releaseSlot p k).1.QueueLaw :=
  of_order (h.order.releaseSlot p k) fun hm => by
    simpa using (State.queueLaw_iff.mp h).2 (by simpa using hm)

theorem settleShift (h : s.QueueLaw) (p : Party) (k source : SlotNo) (r : Rect) :
    (s.settleShift p k source r).1.QueueLaw := by
  have hgrant := h.grant ⟨p, k⟩ r (some source)
  unfold State.settleShift
  dsimp only
  split
  · exact hgrant.moves (State.Moves.refl _).grantScan
  · exact hgrant
  · split
    · exact hgrant
    · split
      · exact (hgrant.releaseSlot p source).moves (State.Moves.refl _).grantScan
      · exact hgrant

theorem blockRequest (h : s.QueueLaw) (c0 c1 r0 r1 : Byte) : (blockRequest c0 c1 r0 r1 s).1.QueueLaw := by
  unfold Machine.blockRequest
  split
  · exact h
  · split
    · exact h
    · dsimp only
      generalize htiles : ({ s with tiles := _, closing := _ } : State) = u
      have hu : u.QueueLaw := by subst htiles; exact h.of_slots rfl rfl fun _ _ => rfl
      have hwithdrawn (f : Tile → Bool) : (s.queue.foldl (withdrawOver f) u).QueueLaw := by
        refine hu.moves (List.foldlRecOn (motive := State.Moves u) s.queue (withdrawOver f) (.refl u) fun v hv n _ => ?_)
        unfold withdrawOver
        split
        · exact hv
        · split
          · exact hv
          · rename_i w hw _ _ _
            exact (hv.step (.remove v n w hw)).raise n.party _ (Notice.allowedAt_of_code_le _ (by simp [Notice.code]))
      split
      · exact (hwithdrawn _).moves (State.Moves.refl _).grantScan
      · exact hwithdrawn _

theorem unblockRequest (h : s.QueueLaw) (c0 c1 r0 r1 : Byte) : (unblockRequest c0 c1 r0 r1 s).1.QueueLaw := by
  unfold Machine.unblockRequest
  split
  · exact h
  · split
    · exact h
    · exact (h.of_slots (by simp) (by simp) fun p k => by rw [slot_lowerClosing]; rfl).moves (State.Moves.refl _).grantScan

/-- Every claim is gone after STOP (R98). -/
theorem slot_clearClaims (s : State) (p : Party) (k : SlotNo) : (s.clearClaims).slot p k = .empty := by
  have hempty : ClaimTable.initial.slots p = Slots.initial := by cases p <;> rfl
  have hslot : (ClaimTable.initial.slots p).get k = .empty := by
    rw [hempty]; revert k; decide
  unfold State.clearClaims
  dsimp only
  split
  · simpa [State.slot] using hslot
  · exact hslot

theorem queue_clearClaims (s : State) : s.clearClaims.queue = [] := by
  unfold State.clearClaims
  dsimp only
  split <;> simp

theorem stopRequest (h : s.QueueLaw) : (stopRequest s).1.QueueLaw := by
  unfold Machine.stopRequest
  split
  · exact h
  · refine of_empty (by simpa using queue_clearClaims s) fun p k => ?_
    have hslot : ({ ((s.clearClaims.goOffline .A).goOffline .B) with mode := .setup } : State).slot p k = .empty := by
      exact ((slot_goOffline _ .B p k).trans (slot_goOffline _ .A p k)).trans (slot_clearClaims s p k)
    simp only [State.slot_raise]
    rw [hslot]
    simp [Claim.state]

/-- After the cancellation of every PENDING claim the queue is empty (R97). -/
theorem queue_cancelAll (h : s.QueueOrder) :
    (((s.cancelPending .A .halt).cancelPending .B .halt).cancelPending .C .halt).queue = [] := by
  have hA := h.cancelPending .A .halt
  have hB := hA.cancelPending .B .halt
  rw [hB.queue_cancelPending, hA.queue_cancelPending, h.queue_cancelPending, List.filter_filter, List.filter_filter]
  refine List.filter_eq_nil_iff.mpr fun n _ => ?_
  cases n.party <;> simp

theorem haltCell (h : s.QueueLaw) (src : HaltSource) : (s.haltCell src).QueueLaw := by
  have horder : State.QueueOrder { s with mode := .halted } := h.order.of_slots rfl fun _ _ => rfl
  have hcancel := (((State.Moves.refl ({ s with mode := .halted } : State)).cancelPending .A .halt).cancelPending .B
    .halt).cancelPending .C .halt
  have htrips := (((State.Moves.refl _).haltArm .A).haltArm .B).grantScan (s := ((({ s with mode := .halted } :
    State).cancelPending .A .halt).cancelPending .B .halt).cancelPending .C .halt)
  have hempty := htrips.queue_sublist
  rw [queue_cancelAll horder, List.sublist_nil] at hempty
  have hlaw := of_order ((horder.moves hcancel).moves htrips) fun _ => hempty
  exact ((hlaw.raise .A _).raise .B _).raise .C _

theorem assertLine (h : s.QueueLaw) : s.assertLine.QueueLaw := by
  have hline : (({ s with haltLevel := true } : State).raise .C (.haltLine s.mode)).QueueLaw :=
    h.of_slots (by simp) (by simp) fun p k => (State.slot_raise _ _ _ p k).trans rfl
  unfold State.assertLine
  dsimp only
  split
  · exact hline.haltCell .line
  · exact hline

theorem evicts (h : s.QueueLaw) (x : Arm) : (s.evicts x).1.QueueLaw :=
  (h.moves ((State.Moves.refl s).evictClaims x).grantScan).of_slots (by simp [State.evicts]) (by simp [State.evicts])
    fun p k => by simp [State.evicts]

theorem serves {c : Instr} (hserves : State.Serves c s t) (h : s.QueueLaw) : t.QueueLaw := by
  have hscan {u : State} (hu : u.QueueLaw) : u.grantScan.QueueLaw := hu.moves (State.Moves.refl _).grantScan
  cases hserves with
  | unchanged => exact h
  | acknowledges p tag rep codes => exact h.of_slots (by simp) (by simp) fun q k => by simp
  | joins x => exact h.of_slots (by simp [State.joins]) (by simp [State.joins]) fun q k => by simp [State.joins]
  | leaves x => exact h.of_slots (by simp) (by simp) fun q k => by simp
  | rearms x => exact h.of_slots (by simp) (by simp) fun q k => by simp
  | evicts x => exact h.evicts x
  | grants _ p k r => exact h.grant _ r none
  | shifts _ p k source r => exact h.settleShift p k source r
  | queues _ p k r link _ hclaim =>
    exact of_order (h.order.enqueue r link hclaim.noPending) fun hm => absurd hclaim.mode (by simpa using hm)
  | withdraws _ p k w _ hw => exact hscan (h.moves ((State.Moves.refl s).step (.remove s _ w hw)))
  | releases _ p k => exact hscan (h.releaseSlot p k)
  | releasesTrip _ x => exact hscan (h.moves ((State.Moves.refl s).step (.releaseTrip s x)))
  | blocks tag c0 c1 r0 r1 => exact h.blockRequest c0 c1 r0 r1
  | unblocks tag c0 c1 r0 r1 => exact h.unblockRequest c0 c1 r0 r1
  | writes tag row start entries =>
    unfold writeRowRequest
    split_ifs <;> exact h.of_slots rfl rfl fun _ _ => rfl
  | sets => exact h.of_slots rfl rfl fun _ _ => rfl
  | starts => exact h.of_mode (.inr rfl) rfl fun _ _ => rfl
  | stops => exact h.stopRequest
  | halts => exact h.haltCell .request
  | clearsHalt => exact h.of_mode (.inr rfl) rfl fun _ _ => rfl

theorem does {c : Instr} (hdoes : State.Does c s t) (h : s.QueueLaw) : t.QueueLaw := by
  cases hdoes with
  | nothing => exact h
  | serves _ q _ u a hq htaken hu =>
    exact (serves hu (h.moves ((State.Moves.refl s).afterReport q.port q.rep))).of_slots (by simp) (by simp)
      fun p k => by simp
  | heldExchange p f _ hheld g n =>
    exact h.of_slots (by simp) (by simp) fun q k => (State.slot_shifts s p g q k)
  | emptyExchange p f _ hheld hport g => exact h.of_slots (by simp) (by simp) fun q k => by simp
  | takes p f _ hheld hport g => exact h.of_slots (by simp) (by simp) fun q k => by simp
  | overruns p f _ hport g => exact h.of_slots (by simp) (by simp) fun q k => by simp
  | refuses p _ tag kind a => exact h.of_slots (by simp) (by simp) fun q k => by simp
  | periodExpires x _ hx => exact h.moves ((State.Moves.refl s).periodExpiry x hx)
  | waitExpires p k _ w hw =>
    exact h.moves ((((State.Moves.refl s).step (.remove s _ w hw)).raise p _
      (Notice.allowedAt_of_code_le _ (by simp [Notice.code]))).grantScan)
  | yieldAsked p k _ r w l hslot =>
    refine of_order (h.order.of_arrivals (by simp) fun n => ?_) fun hm => ?_
    · simp only [State.arrivalOf, slot_raiseYield, State.slot_setSlot_eq]
      split_ifs with hn
      · rw [hn.1, hn.2, hslot]; rfl
      · rfl
    · simpa using (State.queueLaw_iff.mp h).2 (by simpa using hm)
  | heldLine => exact h.of_slots rfl rfl fun _ _ => rfl
  | lineAsserted => exact assertLine (h.of_slots rfl rfl fun _ _ => rfl)
  | lineReleased => exact h.of_slots rfl rfl fun _ _ => rfl
  | resets =>
    refine of_empty rfl fun p k => ?_
    have : State.reset.slot p k = .empty := by cases p <;> (revert k; decide)
    exact fun hp => by
      have := (congrArg Claim.state this).symm.trans hp
      cases this
  | released _ u hheld hu =>
    have hlaw : u.QueueLaw := by
      rw [hu]
      split
      · exact assertLine (h.of_slots rfl rfl fun _ _ => rfl)
      · exact h.of_slots rfl rfl fun _ _ => rfl
    exact hlaw.of_slots (by simp) (by simp) fun p k => by simp

theorem takeSection (h : s.QueueLaw) (x : Arm) (rep : Report) : (s.takeSection x rep).QueueLaw :=
  (h.moves ((State.Moves.refl s).takeReport x.party (some rep))).of_slots (by simp [State.takeSection])
    (by simp [State.takeSection]) fun p k => by simp [State.takeSection]

theorem elapse (h : s.QueueLaw) (n : Nat) : (s.elapse n).QueueLaw :=
  of_order (h.order.of_arrivals (by simp) fun m => by
      simp only [State.arrivalOf, State.slot_elapse]
      cases s.slot m.party m.slot <;> rfl)
    fun hm => by simpa using (State.queueLaw_iff.mp h).2 (by simpa using hm)

end State.QueueLaw

/-- Settles O58: moves take entries from the queue and keep their order, and a new claim enters at the tail. -/
theorem stepKeepsQueueLaw : Obligations.StepKeepsQueueLaw := by
  unfold Obligations.StepKeepsQueueLaw
  intro s t hs h
  exact step_keeps (P := State.QueueLaw) (fun c s t hdoes => State.QueueLaw.does hdoes)
    (fun s rest hs => State.QueueLaw.of_slots hs rfl rfl fun _ _ => rfl)
    (fun s x rep _ hs => State.QueueLaw.takeSection hs x rep) (fun s n hs => State.QueueLaw.elapse hs n) hs h

end Sys2Proof.Machine
end

section
/-! SUPPORT. The laws of the mode, the guard states and the parameter store (R118, R119, R149, R158) over every move, every
command and every step. -/

namespace Sys2Proof.Machine

open Sys2Proof

/-! ### The exchange side of the ports -/

/-- A move does nothing to a port but raise notices at it. -/
theorem State.Move.onlyRaises {s t : State} (h : s.Move t) : s.OnlyRaises t := by
  have hrefl := State.OnlyRaises.refl s
  cases h with
  | raise p n => exact hrefl.raise p n
  | monitor x m => exact hrefl.of_port_eq (s.port_setMonitor x m)
  | evaluation x rep m e => exact hrefl.of_port_eq (s.port_setEvaluation x (some e))
  | guard x g => exact hrefl.setGuard x g
  | remove n => exact hrefl.of_port_eq (port_removePending s n)
  | release p k => exact hrefl.releaseSlot p k
  | releaseTrip x => exact (hrefl.dropHolds (s.inTrip x)).of_port_eq fun p => by simp [State.releaseTrip]
  | grant n w => exact hrefl.grant n w.rect w.link
  | trip x c own tile => exact hrefl.tripBegin x c own tile

/-- Raised notices leave the exchange side of every port as it was. -/
theorem State.OnlyRaises.exchange {s t : State} (h : s.OnlyRaises t) (p : Party) : s.ExchangeKept t p := by
  have hraises := h p
  unfold State.ExchangeKept
  generalize t.port p = q at hraises ⊢
  induction hraises with
  | refl => exact ⟨rfl, rfl, rfl, rfl⟩
  | tail _ hraise ih =>
    obtain ⟨n, rfl⟩ := hraise
    exact ih

theorem State.Moves.onlyRaises {s t : State} (h : s.Moves t) : s.OnlyRaises t := by
  refine h.keeps (P := fun t => s.OnlyRaises t) (fun a b hmove ha => ?_) (State.OnlyRaises.refl s)
  exact fun p => (ha p).trans (hmove.onlyRaises p)

theorem State.Moves.exchange {s t : State} (h : s.Moves t) (p : Party) : s.ExchangeKept t p := h.onlyRaises.exchange p

/-- The halt raises notices and does nothing else at a port (R152, R153). -/
theorem State.OnlyRaises.haltCell {s t : State} (h : s.OnlyRaises t) (src : HaltSource) : s.OnlyRaises (t.haltCell src) := by
  have hmode : s.OnlyRaises { t with mode := .halted } := h.of_port_eq fun p => by cases p <;> rfl
  have harm {u : State} (hu : s.OnlyRaises u) (x : Arm) : s.OnlyRaises (u.haltArm x) := by
    unfold State.haltArm
    split
    · exact hu.tripImposed x .halt none
    · exact hu
  exact ((((harm (harm (((hmode.cancelPending .A .halt).cancelPending .B .halt).cancelPending .C .halt) .A) .B).grantScan).raise
    .A _).raise .B _).raise .C _

theorem State.OnlyRaises.assertLine {s t : State} (h : s.OnlyRaises t) : s.OnlyRaises t.assertLine := by
  have hlevel : s.OnlyRaises { t with haltLevel := true } := h.of_port_eq fun p => by cases p <;> rfl
  unfold State.assertLine
  dsimp only
  split
  · exact (hlevel.raise .C _).haltCell .line
  · exact hlevel.raise .C _

/-! ### Trips and the blocks of an arm -/

/-- The blocks of an arm after it trips: what was measured is kept, the guard is TRIPPED with its permit off and a valid
record (R133). -/
structure ArmUnit.TrippedTo (u v : ArmUnit) : Prop where
  monitor : v.monitor = u.monitor
  evaluation : v.evaluation = u.evaluation
  state : v.guard.state = .tripped
  permit : v.guard.permit = false
  clean : v.guard.clean = 0
  joined : v.guard.joined = u.guard.joined
  trip : v.guard.trip.isSome = true

theorem trippedTo_tripBegin (s : State) (x : Arm) (c : Cause) (own : Bool) (tile : Option Tile) :
    (s.arm x).TrippedTo ((s.tripBegin x c own tile).arm x) := by
  obtain ⟨hstate, hpermit, hclean, hjoined, n, b, htrip⟩ := guard_tripBegin s x c own tile
  obtain ⟨hmonitor, hevaluation⟩ := parts_tripBegin s x c own tile x
  exact ⟨hmonitor, hevaluation, hstate, hpermit, hclean, hjoined, by rw [htrip]; rfl⟩

theorem trippedTo_tripImposed (s : State) (x : Arm) (c : Cause) (tile : Option Tile) :
    (s.arm x).TrippedTo ((s.tripImposed x c tile).arm x) := by
  have h := trippedTo_tripBegin s x c false tile
  simpa [State.tripImposed] using h

theorem Arm.other_ne (x : Arm) : x.other ≠ x := by cases x <;> simp [Arm.other]

@[simp] theorem Arm.other_other (x : Arm) : x.other.other = x := by cases x <;> rfl

theorem Arm.eq_or_eq_other (x y : Arm) : y = x ∨ y = x.other := by cases x <;> cases y <;> simp [Arm.other]

@[simp] theorem Arm.arm_party (x : Arm) : x.party.arm = some x := by cases x <;> rfl

theorem Arm.party_injective {x y : Arm} (h : x.party = y.party) : x = y := by cases x <;> cases y <;> simp_all [Arm.party]

theorem Arm.party_ne_C (x : Arm) : x.party ≠ .C := by cases x <;> simp [Arm.party]

theorem Party.eq_party_of_arm {p : Party} {x : Arm} (h : p.arm = some x) : p = x.party := by
  cases p <;> cases x <;> simp_all [Party.arm, Arm.party]

/-- A guard that is TRIPPED for HALT is that of the imposed trip; the other arm is left (R140). -/
theorem arm_haltArm (s : State) (x y : Arm) :
    (s.haltArm x).arm y = if y = x ∧ s.trippable x = true then (s.tripImposed x .halt none).arm y else s.arm y := by
  unfold State.haltArm
  by_cases hx : s.trippable x = true
  · by_cases hy : y = x
    · simp [hx, hy]
    · simp [hx, hy, arm_tripImposed_of_ne s .halt none hy]
  · simp [hx]

@[simp] theorem State.mode_haltCell (s : State) (src : HaltSource) : (s.haltCell src).mode = .halted := by
  simp [State.haltCell]

/-- Every ARMING or LIVE arm trips in a HALT, and the others are left (R140, R152). -/
theorem arm_haltCell (s : State) (src : HaltSource) (x : Arm) :
    (s.trippable x = true → (s.arm x).TrippedTo ((s.haltCell src).arm x)) ∧
    (s.trippable x = false → (s.haltCell src).arm x = s.arm x) := by
  have harms : ∀ y, (((({ s with mode := .halted } : State).cancelPending .A .halt).cancelPending .B .halt).cancelPending
      .C .halt).arm y = s.arm y := fun y => by
    rw [arm_cancelPending, arm_cancelPending, arm_cancelPending]; cases y <;> rfl
  unfold State.haltCell
  simp only [State.arm_raise, arm_grantScan]
  generalize (((({ s with mode := .halted } : State).cancelPending .A .halt).cancelPending .B .halt).cancelPending
    .C .halt) = u at harms ⊢
  have htrippable : ∀ {v : State} {y : Arm}, v.arm y = s.arm y → v.trippable y = s.trippable y := fun h => by
    simp [State.trippable, State.guardState, h]
  cases x with
  | A =>
    have hA : ((u.haltArm .A).haltArm .B).arm .A = (u.haltArm .A).arm .A := by rw [arm_haltArm]; simp
    rw [hA, arm_haltArm, htrippable (harms .A)]
    constructor
    · intro h
      simpa [h, harms] using trippedTo_tripImposed u .A .halt none
    · intro h
      simp [h, harms]
  | B =>
    have hB : (u.haltArm .A).arm .B = s.arm .B := by rw [arm_haltArm]; simp [harms]
    rw [arm_haltArm, htrippable hB]
    constructor
    · intro h
      simpa [h, hB] using trippedTo_tripImposed (u.haltArm .A) .B .halt none
    · intro h
      simp [h, hB]

/-! ### The laws of one arm -/

/-- The law of the blocks of one arm in a mode and under an epoch (R117 to R119, R149). -/
def ArmUnit.Law (u : ArmUnit) (mode : Mode) (epoch : Byte) : Prop :=
  (u.guard.permit = true ↔ u.guard.state = .live) ∧
  (u.guard.state = .arming ∨ u.guard.state = .live → mode = .guarding) ∧
  (mode = .setup → u.guard.state = .offline) ∧
  (u.guard.state ≠ .offline → u.guard.joined = some epoch) ∧
  (u.monitor.timer.isSome = true ↔ u.guard.state ≠ .offline) ∧
  (0 < u.guard.clean → u.guard.state = .arming ∨ u.guard.state = .live)

theorem State.armLaw_iff {s : State} {x : Arm} : s.ArmLaw x ↔ (s.arm x).Law s.mode s.epoch := Iff.rfl

namespace ArmUnit.Law

variable {u v : ArmUnit} {mode : Mode} {epoch : Byte}

/-- Blocks with another evaluation record, and a guard and a timer alike in what the law reads. -/
theorem of_parts (h : u.Law mode epoch) (hstate : v.guard.state = u.guard.state) (hpermit : v.guard.permit = u.guard.permit)
    (hjoined : v.guard.joined = u.guard.joined) (htimer : v.monitor.timer.isSome = u.monitor.timer.isSome)
    (hclean : 0 < v.guard.clean → 0 < u.guard.clean ∨ u.guard.state = .arming) : v.Law mode epoch := by
  obtain ⟨h1, h2, h3, h4, h5, h6⟩ := h
  unfold ArmUnit.Law
  rw [hstate, hpermit, hjoined, htimer]
  refine ⟨h1, h2, h3, h4, h5, fun hc => ?_⟩
  obtain hc | hc := hclean hc
  · exact h6 hc
  · exact .inl hc

/-- An ARMING arm becomes LIVE (R122). -/
theorem of_live (h : u.Law mode epoch) (harming : u.guard.state = .arming) (hstate : v.guard.state = .live)
    (hpermit : v.guard.permit = true) (hjoined : v.guard.joined = u.guard.joined)
    (htimer : v.monitor.timer.isSome = u.monitor.timer.isSome) : v.Law mode epoch := by
  obtain ⟨-, h2, h3, h4, h5, -⟩ := h
  rw [harming] at h2 h3 h4 h5
  unfold ArmUnit.Law
  rw [hstate, hpermit, hjoined, htimer]
  refine ⟨by simp, fun _ => h2 (.inl rfl), fun hm => ?_, fun _ => h4 (by simp), by simpa using h5, fun _ => .inr rfl⟩
  cases h3 hm

/-- An arm that is not OFFLINE trips; the mode may have gone from GUARDING to HALTED with it (R133, R152). -/
theorem of_tripped {mode' : Mode} (h : u.Law mode epoch) (htrip : u.TrippedTo v) (hjoined : u.guard.state ≠ .offline)
    (hmode : mode' ≠ .setup) : v.Law mode' epoch := by
  obtain ⟨-, -, -, h4, h5, -⟩ := h
  unfold ArmUnit.Law
  rw [htrip.monitor, htrip.state, htrip.permit, htrip.clean, htrip.joined]
  exact ⟨by simp, by simp, fun hm => absurd hm hmode, fun _ => h4 hjoined, by simpa [hjoined] using h5, by simp⟩

/-- An arm that is OFFLINE (R55, R124). -/
theorem of_offline (hstate : v.guard.state = .offline) (hpermit : v.guard.permit = false) (hclean : v.guard.clean = 0)
    (htimer : v.monitor.timer = none) : v.Law mode epoch := by
  unfold ArmUnit.Law
  rw [hstate, hpermit, hclean, htimer]
  simp

/-- What an arm that is neither ARMING nor LIVE keeps in another mode, and an OFFLINE one under another epoch. -/
theorem of_mode {mode' : Mode} {epoch' : Byte} (h : u.Law mode epoch)
    (hstill : mode' = .guarding ∨ u.guard.state = .tripped ∨ u.guard.state = .offline)
    (hsetup : mode' = .setup → u.guard.state = .offline)
    (hepoch : epoch' = epoch ∨ u.guard.state = .offline) : u.Law mode' epoch' := by
  obtain ⟨h1, -, -, h4, h5, h6⟩ := h
  refine ⟨h1, fun hg => ?_, hsetup, fun hj => ?_, h5, h6⟩
  · obtain h | h | h := hstill
    · exact h
    · rw [h] at hg; simp at hg
    · rw [h] at hg; simp at hg
  · obtain h | h := hepoch
    · rw [h]; exact h4 hj
    · exact absurd h hj

end ArmUnit.Law

/-- The laws of both arms. -/
def State.ArmLaws (s : State) : Prop := ∀ x, (s.arm x).Law s.mode s.epoch

namespace State.ArmLaws

variable {s t : State}

theorem of_arms (h : s.ArmLaws) (harms : ∀ x, t.arm x = s.arm x) (hmode : t.mode = s.mode) (hepoch : t.epoch = s.epoch) :
    t.ArmLaws := fun x => by rw [harms, hmode, hepoch]; exact h x

/-- One arm changes. -/
theorem of_arm (h : s.ArmLaws) (x : Arm) (hx : (t.arm x).Law s.mode s.epoch) (hother : ∀ y, y ≠ x → t.arm y = s.arm y)
    (hmode : t.mode = s.mode) (hepoch : t.epoch = s.epoch) : t.ArmLaws := fun y => by
  rw [hmode, hepoch]
  by_cases hy : y = x
  · rw [hy]; exact hx
  · rw [hother y hy]; exact h y

/-- A joined arm of a state that keeps the laws is not in SETUP. -/
theorem mode_ne_setup (h : s.ArmLaws) {x : Arm} (hx : s.guardState x ≠ .offline) : s.mode ≠ .setup :=
  fun hm => hx ((h x).2.2.1 hm)

theorem move (hmove : s.Move t) (h : s.ArmLaws) : t.ArmLaws := by
  cases hmove with
  | raise p n => exact h.of_arms (by simp) (by simp) (by simp)
  | monitor x m hm =>
    refine h.of_arm x ?_ (fun y hy => s.arm_setMonitor_of_ne m hy) (by simp) (by simp)
    have hx := h x
    have htimer : m.timer.isSome = (s.arm x).monitor.timer.isSome := by
      obtain hm | ⟨hjoined, hm⟩ := hm
      · exact hm
      · rw [hm]; exact (hx.2.2.2.2.1.mpr hjoined).symm
    exact hx.of_parts (by simp) (by simp) (by simp) (by simpa using htimer) fun hc => .inl (by simpa using hc)
  | evaluation x rep m e =>
    exact h.of_arm x ((h x).of_parts (by simp) (by simp) (by simp) (by simp) fun hc => .inl (by simpa using hc))
      (fun y hy => s.arm_setEvaluation_of_ne _ hy) (by simp) (by simp)
  | guard x g hstate hjoined hclean =>
    refine h.of_arm x ?_ (fun y hy => s.arm_setGuard_of_ne g hy) (by simp) (by simp)
    obtain ⟨hsame, hpermit⟩ | ⟨harming, hlive, hpermit⟩ := hstate
    · exact (h x).of_parts (by simpa [State.guardState] using hsame) (by simpa using hpermit) (by simpa using hjoined)
        (by simp) (by simpa [State.guardState] using hclean)
    · exact (h x).of_live harming (by simpa using hlive) (by simpa using hpermit) (by simpa using hjoined) (by simp)
  | remove n => exact h.of_arms (by simp) (by simp) (by simp)
  | release p k => exact h.of_arms (by simp) (by simp) (by simp)
  | releaseTrip x => exact h.of_arms (by simp) (by simp) (by simp)
  | grant n w => exact h.of_arms (by simp) (by simp) (by simp)
  | trip x c own tile hx =>
    have hjoined : s.guardState x ≠ .offline := fun ho => by simp [State.trippable, ho] at hx
    exact h.of_arm x ((h x).of_tripped (trippedTo_tripBegin s x c own tile) hjoined (h.mode_ne_setup hjoined))
      (fun y hy => arm_tripBegin_of_ne s c own tile hy) (by simp) (by simp)

theorem moves (h : s.ArmLaws) (hmoves : s.Moves t) : t.ArmLaws := hmoves.keeps (fun _ _ => move) h

theorem goOffline (h : s.ArmLaws) (x : Arm) : (s.goOffline x).ArmLaws :=
  h.of_arm x (ArmUnit.Law.of_offline (by simp [State.goOffline]) (by simp [State.goOffline]) (by simp [State.goOffline])
    (by simp [State.goOffline])) (fun y hy => s.arm_setArm_of_ne _ hy) (by simp [State.goOffline]) (by simp [State.goOffline])

theorem haltCell (h : s.ArmLaws) (src : HaltSource) : (s.haltCell src).ArmLaws := by
  intro x
  have hmode : (s.haltCell src).mode = .halted := by simp
  have hepoch : (s.haltCell src).epoch = s.epoch := by simp
  rw [hmode, hepoch]
  obtain ⟨htrips, hleft⟩ := arm_haltCell s src x
  cases hx : s.trippable x with
  | true =>
    have hjoined : s.guardState x ≠ .offline := fun ho => by simp [State.trippable, ho] at hx
    exact (h x).of_tripped (htrips hx) hjoined (by simp)
  | false =>
    rw [hleft hx]
    refine (h x).of_mode (.inr ?_) (by simp) (.inl rfl)
    simp only [State.trippable, State.guardState, Bool.or_eq_false_iff, beq_eq_false_iff_ne] at hx
    cases hg : (s.arm x).guard.state <;> simp_all

end State.ArmLaws

/-! ### The laws of the mode -/

theorem State.modeLaw_iff {s : State} :
    s.ModeLaw ↔ s.ArmLaws ∧ (s.mode = .guarding → s.haltLevel = false) ∧ (s.mode ≠ .setup → s.epoch ≠ 0) ∧
      (s.held = false → s.haltLevel = s.haltPinLow) ∧
      (s.held = true → s.mode = .setup ∧ s.haltLevel = false ∧ ∀ p, (s.port p).processing = none) := Iff.rfl

namespace State.ModeLaw

variable {s t : State}

theorem arms (h : s.ModeLaw) : s.ArmLaws := h.1

theorem held_processing (h : s.ModeLaw) (hheld : s.held = true) (p : Party) : (s.port p).processing = none :=
  (h.2.2.2.2 hheld).2.2 p

/-- What keeps the control fields, and takes no request, keeps the law where it keeps the arm laws. -/
theorem of_arms (h : s.ModeLaw) (harms : t.ArmLaws) (hmode : t.mode = s.mode) (hepoch : t.epoch = s.epoch)
    (hlevel : t.haltLevel = s.haltLevel) (hheld : t.held = s.held) (hpin : t.haltPinLow = s.haltPinLow)
    (hports : s.held = true → ∀ p, (t.port p).processing = (s.port p).processing) : t.ModeLaw := by
  obtain ⟨-, h2, h3, h4, h5⟩ := State.modeLaw_iff.mp h
  refine State.modeLaw_iff.mpr ⟨harms, ?_⟩
  rw [hmode, hepoch, hlevel, hheld, hpin]
  exact ⟨h2, h3, h4, fun hh => ⟨(h5 hh).1, (h5 hh).2.1, fun p => (hports hh p).trans ((h5 hh).2.2 p)⟩⟩

/-- A part that is not held in reset, with its arm laws. -/
theorem of_not_held (harms : t.ArmLaws) (hheld : t.held = false) (hline : t.mode = .guarding → t.haltLevel = false)
    (hepoch : t.mode ≠ .setup → t.epoch ≠ 0) (hpin : t.haltLevel = t.haltPinLow) : t.ModeLaw :=
  ⟨harms, hline, hepoch, fun _ => hpin, fun hh => by rw [hheld] at hh; cases hh⟩

theorem moves (h : s.ModeLaw) (hmoves : s.Moves t) : t.ModeLaw := by
  obtain ⟨hmode, hepoch, -, hlevel, hheld, hpin, -, -⟩ := hmoves.control
  exact h.of_arms (h.arms.moves hmoves) hmode hepoch hlevel hheld hpin fun _ p => (hmoves.exchange p).1

theorem raise (h : s.ModeLaw) (p : Party) (n : Notice) : (s.raise p n).ModeLaw :=
  h.of_arms (h.arms.of_arms (by simp) (by simp) (by simp)) (by simp) (by simp) (by simp) (by simp) (by simp)
    fun _ r => (State.raise_port_rest s p r n).1

/-- An assertion of the halt line of a part that is not held (R153). -/
theorem assertLine (harms : s.ArmLaws) (hheld : s.held = false) (hepoch : s.mode ≠ .setup → s.epoch ≠ 0)
    (hpin : s.haltPinLow = true) : s.assertLine.ModeLaw := by
  have hline : (({ s with haltLevel := true } : State).raise .C (.haltLine s.mode)).ArmLaws :=
    harms.of_arms (fun x => by cases x <;> rfl) rfl rfl
  unfold State.assertLine
  dsimp only
  split
  · rename_i hmode
    exact of_not_held (hline.haltCell .line) (by simp [hheld]) (by simp) (fun _ => by simpa [hmode] using hepoch)
      (by simp [hpin])
  · rename_i hmode
    exact of_not_held hline (by simp [hheld]) (fun hm => absurd (by simpa using hm) hmode) (by simpa using hepoch)
      (by simp [hpin])

/-- A request is served only while the part is not held. -/
theorem not_held_of_taken (h : s.ModeLaw) {p : Party} {c : Instr} (htaken : s.taken p c = true) : s.held = false := by
  by_contra hheld
  have := State.not_taken_of_idle (h.held_processing (by simpa using hheld) p) c
  rw [htaken] at this
  cases this

theorem evicts (h : s.ModeLaw) (x : Arm) : (s.evicts x).1.ModeLaw := by
  have hmoves := h.moves ((State.Moves.refl s).evictClaims x).grantScan
  exact raise (hmoves.of_arms (hmoves.arms.goOffline x) (by simp) (by simp) (by simp) (by simp) (by simp)
    fun _ p => by simp) x.party _

theorem raiseEpoch_ne_zero (e : Byte) : raiseEpoch e ≠ 0 := by
  intro h
  have := raiseEpoch_toNat e
  rw [h] at this
  split at this <;> simp at this

theorem stopRequest (h : s.ModeLaw) (hheld : s.held = false) : (stopRequest s).1.ModeLaw := by
  unfold Machine.stopRequest
  split
  · exact h
  · have hclear : s.clearClaims.ArmLaws := h.arms.of_arms (arm_clearClaims s) (by simp) (by simp)
    have hoffline := (hclear.goOffline .A).goOffline .B
    have hstate (x : Arm) : ((s.clearClaims.goOffline .A).goOffline .B).guardState x = .offline := by
      cases x <;> rfl
    have hmode : State.ArmLaws { ((s.clearClaims.goOffline .A).goOffline .B) with mode := .setup } := fun x => by
      have := (hoffline x).of_mode (mode' := .setup) (epoch' := s.epoch) (.inr (.inr (hstate x))) (fun _ => hstate x)
        (.inr (hstate x))
      cases x <;> simpa [State.arm] using this
    refine raise (raise (of_not_held hmode (by simpa using hheld) (fun hm => by cases hm) (fun hm => absurd rfl hm) ?_)
      .A _) .B _
    simpa using (State.modeLaw_iff.mp h).2.2.2.1 hheld

theorem serves {c : Instr} (hserves : State.Serves c s t) (h : s.ModeLaw) (hheld : s.held = false) : t.ModeLaw := by
  have hscan {u : State} (hu : u.ModeLaw) : u.grantScan.ModeLaw := hu.moves (State.Moves.refl _).grantScan
  obtain ⟨harms, hguarding, hepoch, hpin, -⟩ := State.modeLaw_iff.mp h
  have hsame {u : State} (hu : ∀ x, u.arm x = s.arm x) (hmode : u.mode = s.mode) (he : u.epoch = s.epoch)
      (hlevel : u.haltLevel = s.haltLevel) (hh : u.held = s.held) (hp : u.haltPinLow = s.haltPinLow) : u.ModeLaw :=
    h.of_arms (harms.of_arms hu hmode he) hmode he hlevel hh hp fun hh => by rw [hheld] at hh; cases hh
  cases hserves with
  | unchanged => exact h
  | acknowledges => exact hsame (by simp) (by simp) (by simp) (by simp) (by simp) (by simp)
  | joins x _ _ _ _ hmode hx =>
    refine h.of_arms (harms.of_arm x ?_ (fun y hy => s.arm_setArm_of_ne _ hy) (by simp [State.joins])
      (by simp [State.joins])) (by simp [State.joins]) (by simp [State.joins]) (by simp [State.joins])
      (by simp [State.joins]) (by simp [State.joins]) fun hh => by rw [hheld] at hh; cases hh
    simp [State.joins, ArmUnit.Law, hmode]
  | leaves x => exact h.of_arms (harms.goOffline x) (by simp) (by simp) (by simp) (by simp) (by simp) fun _ p => by simp
  | rearms x _ _ _ hmode hx =>
    refine h.of_arms (harms.of_arm x ?_ (fun y hy => s.arm_setGuard_of_ne _ hy) (by simp) (by simp))
      (by simp) (by simp) (by simp) (by simp) (by simp) fun _ p => by simp
    have hstate : (s.arm x).guard.state = .tripped := hx
    obtain ⟨-, -, -, hjoined, htimer, -⟩ := harms x
    rw [hstate] at hjoined htimer
    simpa [ArmUnit.Law, hmode, Guard.mapTrip] using ⟨hjoined (by simp), htimer.mpr (by simp)⟩
  | evicts x => exact h.evicts x
  | grants => exact hsame (by simp) (by simp) (by simp) (by simp) (by simp) (by simp)
  | shifts _ p k source r =>
    have hgrant : (s.grant ⟨p, k⟩ r (some source)).1.ModeLaw :=
      hsame (by simp) (by simp) (by simp) (by simp) (by simp) (by simp)
    have hrelease : ((s.grant ⟨p, k⟩ r (some source)).1.releaseSlot p source).1.ModeLaw :=
      hsame (by simp) (by simp) (by simp) (by simp) (by simp) (by simp)
    unfold State.settleShift
    dsimp only
    split
    · exact hscan hgrant
    · exact hgrant
    · split
      · exact hgrant
      · split
        · exact hscan hrelease
        · exact hgrant
  | queues => exact hsame (by simp) (by simp) (by simp) (by simp) (by simp) (by simp)
  | withdraws _ p k => exact hscan (hsame (by simp) (by simp) (by simp) (by simp) (by simp) (by simp))
  | releases => exact hscan (hsame (by simp) (by simp) (by simp) (by simp) (by simp) (by simp))
  | releasesTrip => exact hscan (hsame (by simp) (by simp) (by simp) (by simp) (by simp) (by simp))
  | blocks tag c0 c1 r0 r1 =>
    unfold blockRequest
    split
    · exact h
    · split
      · exact h
      · dsimp only
        generalize htiles : ({ s with tiles := _, closing := _ } : State) = u
        have hu : u.ModeLaw := by subst htiles; exact hsame (fun x => by cases x <;> rfl) rfl rfl rfl rfl rfl
        have hwithdrawn (f : Tile → Bool) : (s.queue.foldl (withdrawOver f) u).ModeLaw :=
          hu.of_arms (hu.arms.of_arms (by simp) (by simp) (by simp)) (by simp) (by simp) (by simp) (by simp) (by simp)
            fun hh => by subst htiles; exact absurd hh (by simp [hheld])
        split
        · exact hscan (hwithdrawn _)
        · exact hwithdrawn _
  | unblocks tag c0 c1 r0 r1 =>
    unfold unblockRequest
    split
    · exact h
    · split
      · exact h
      · exact hscan (hsame (fun x => by rw [arm_lowerClosing]; cases x <;> rfl) (by simp) (by simp) (by simp) (by simp)
          (by simp))
  | writes tag row start entries =>
    unfold writeRowRequest
    split_ifs <;> exact hsame (fun x => by cases x <;> rfl) rfl rfl rfl rfl rfl
  | sets => exact hsame (fun x => by cases x <;> rfl) rfl rfl rfl rfl rfl
  | starts _ _ hmode hline =>
    refine of_not_held (fun x => ?_) hheld (fun _ => hline) (fun _ => raiseEpoch_ne_zero _) (hpin hheld)
    have hoffline := (harms x).2.2.1 hmode
    have hlaw := (harms x).of_mode (mode' := .guarding) (epoch' := raiseEpoch s.epoch) (.inl rfl) (by simp) (.inr hoffline)
    cases x <;> exact hlaw
  | stops => exact h.stopRequest hheld
  | halts _ _ hmode =>
    exact of_not_held (harms.haltCell .request) (by simp [hheld]) (by simp) (fun _ => by simpa [hmode] using hepoch)
      (by simpa using hpin hheld)
  | clearsHalt _ _ hmode hline =>
    refine of_not_held (fun x => ?_) hheld (fun _ => hline) (fun _ => by simpa [hmode] using hepoch) (hpin hheld)
    have hlaw := (harms x).of_mode (mode' := .guarding) (epoch' := s.epoch) (.inl rfl) (by simp) (.inl rfl)
    cases x <;> exact hlaw

theorem placeReply (h : s.ModeLaw) (hheld : s.held = false) (p : Party) (tag : BitVec 4) (kind : Byte) (a : Answer) :
    (s.placeReply p tag kind a).ModeLaw :=
  h.of_arms (h.arms.of_arms (by simp) (by simp) (by simp)) (by simp) (by simp) (by simp) (by simp) (by simp)
    fun hh => by rw [hheld] at hh; cases hh

theorem does {c : Instr} (hdoes : State.Does c s t) (h : s.ModeLaw) : t.ModeLaw := by
  obtain ⟨harms, hguarding, hepoch, hpin, hreset⟩ := State.modeLaw_iff.mp h
  cases hdoes with
  | nothing => exact h
  | serves _ q _ u a hq htaken hu =>
    have hmoves := (State.Moves.refl s).afterReport q.port q.rep
    have hheld := hmoves.control.2.2.2.2.1.trans (h.not_held_of_taken htaken)
    have hlaw := serves hu (h.moves hmoves) hheld
    refine hlaw.of_arms (hlaw.arms.of_arms (by simp) (by simp) (by simp)) (by simp) (by simp) (by simp) (by simp) (by simp)
      fun hh p => ?_
    by_cases hp : p = q.port
    · rw [hp, State.port_placeReply]; exact (hlaw.held_processing hh q.port).symm
    · rw [State.port_placeReply_of_ne _ _ _ _ hp]
  | heldExchange p f _ hheld g n =>
    exact h.of_arms (harms.of_arms (fun x => s.arm_shifts p g x) (by simp) (by simp)) (by simp) (by simp) (by simp) (by simp)
      (by simp) fun _ r => by cases p <;> cases r <;> rfl
  | emptyExchange p f _ hheld hport g =>
    exact h.of_arms (harms.of_arms (fun x => s.arm_shifts p g x) (by simp) (by simp)) (by simp) (by simp) (by simp) (by simp)
      (by simp) fun _ r => by cases p <;> cases r <;> rfl
  | takes p f _ hheld hport g =>
    exact h.of_arms (harms.of_arms (by simp) (by simp) (by simp)) (by simp) (by simp) (by simp) (by simp)
      (by simp) fun hh => by rw [hheld] at hh; cases hh
  | overruns p f _ hport g =>
    exact h.of_arms (harms.of_arms (by simp) (by simp) (by simp)) (by simp) (by simp) (by simp) (by simp)
      (by simp) fun _ r => by cases p <;> cases r <;> rfl
  | refuses p _ tag kind a hport =>
    refine h.of_arms (harms.of_arms (by simp) (by simp) (by simp)) (by simp) (by simp) (by simp) (by simp)
      (by simp) fun hh => ?_
    rw [(hreset hh).2.2 p] at hport
    cases hport
  | periodExpires x _ hx => exact h.moves ((State.Moves.refl s).periodExpiry x hx)
  | waitExpires p k _ w hw =>
    exact h.moves ((((State.Moves.refl s).step (.remove s _ w hw)).raise p _
      (Notice.allowedAt_of_code_le _ (by simp [Notice.code]))).grantScan)
  | yieldAsked p k _ r w l =>
    have hyield : ∀ u : State, s.OnlyRaises u → s.OnlyRaises (u.raiseYield p k r) := fun u hu => by
      refine List.foldlRecOn (motive := fun v => s.OnlyRaises v) parties _ hu fun v hv y _ => ?_
      split
      · exact hv.raise y _
      · exact hv
    exact h.of_arms (harms.of_arms (by simp) (by simp) (by simp)) (by simp) (by simp) (by simp) (by simp)
      (by simp) fun _ r =>
        ((hyield _ ((State.OnlyRaises.refl s).of_port_eq (s.port_setSlot p k _))).exchange r).1
  | heldLine c hc _ hheld b =>
    have hpin' : s.held = false → s.haltLevel = b := fun hh => absurd hh (by simp [hheld])
    exact State.modeLaw_iff.mpr ⟨harms.of_arms (fun x => by cases x <;> rfl) rfl rfl, hguarding, hepoch, hpin', fun hh =>
      ⟨(hreset hh).1, (hreset hh).2.1, fun p => by have := (hreset hh).2.2 p; cases p <;> exact this⟩⟩
  | lineAsserted _ hheld =>
    exact assertLine (fun x => by have := harms x; cases x <;> exact this) hheld hepoch rfl
  | lineReleased _ hheld =>
    exact of_not_held (fun x => by have := harms x; cases x <;> exact this) hheld (fun _ => rfl) hepoch rfl
  | resets =>
    refine State.modeLaw_iff.mpr ⟨fun x => ?_, fun _ => rfl, fun hm => absurd rfl hm, fun hh => absurd hh (by simp),
      fun _ => ⟨rfl, rfl, fun p => by cases p <;> rfl⟩⟩
    exact ArmUnit.Law.of_offline (by cases x <;> rfl) (by cases x <;> rfl) (by cases x <;> rfl) (by cases x <;> rfl)
  | released _ u hheld hu =>
    have hmode : s.mode = .setup := (hreset hheld).1
    have hlaw : u.ModeLaw ∧ u.held = false := by
      rw [hu]
      split
      · rename_i hpin
        exact ⟨assertLine (fun x => by have := harms x; cases x <;> exact this) rfl hepoch hpin, by
          simp [State.assertLine, hmode]⟩
      · rename_i hpin
        exact ⟨of_not_held (fun x => by have := harms x; cases x <;> exact this) rfl (fun _ => rfl) hepoch
          (by simpa using hpin), rfl⟩
    obtain ⟨hlaw, hfree⟩ := hlaw
    exact hlaw.of_arms (hlaw.arms.of_arms (by simp) (by simp) (by simp)) (by simp) (by simp) (by simp) (by simp) (by simp)
      fun hh => by rw [hfree] at hh; cases hh

theorem takeSection (h : s.ModeLaw) (x : Arm) (rep : Report) : (s.takeSection x rep).ModeLaw := by
  have hlaw := h.moves ((State.Moves.refl s).takeReport x.party (some rep))
  exact hlaw.of_arms (hlaw.arms.of_arms (fun y => State.arm_setPort _ _ _ y) (by simp [State.takeSection])
    (by simp [State.takeSection])) (by simp [State.takeSection]) (by simp [State.takeSection])
    (by simp [State.takeSection]) (by simp [State.takeSection]) (by simp [State.takeSection])
    fun _ r => by cases x <;> cases r <;> rfl

theorem elapse (h : s.ModeLaw) (n : Nat) : (s.elapse n).ModeLaw :=
  h.of_arms (fun x => by
      have hx := h.arms x
      cases x <;> exact hx.of_parts rfl rfl rfl (by simp [State.elapse, State.arm, Monitor.elapse]) fun hc => .inl hc)
    (by simp) (by simp) (by simp) (by simp) (by simp) fun _ p => by simp

end State.ModeLaw

/-! ### The parameter store -/

/-- The value stored lies in the range of its identifier (R159). -/
theorem inRange_storedValue {n v lo hi : Nat} (h : paramRange n = some (lo, hi)) :
    inRange (storedValue n v (lo, hi)) (lo, hi) :=
  ⟨le_max_left _ _, storedValue_le v (lo_le_hi_of_paramRange h)⟩

/-- A stored REPORT_PERIOD is a multiple of 250 (R56). -/
theorem storedValue_period {n v : Nat} (h : n = 24 ∨ n = 40) : storedValue n v (250, 4000) % 250 = 0 := by
  have : isPeriod n = true := isPeriod_iff.mpr h
  simp only [storedValue, this, if_true, saturate]
  omega

/-- SET_PARAM keeps every parameter within its range (R158, R159). -/
theorem Params.Law.write {ps : Params} (h : ps.Law) {n : Nat} (v : Nat) {range : Nat × Nat} (hn : paramRange n = some range) :
    (ps.write n (storedValue n v range)).Law := by
  obtain ⟨lo, hi⟩ := range
  have hrange := inRange_storedValue (v := v) hn
  have hperiod : n = 24 ∨ n = 40 → storedValue n v (lo, hi) % 250 = 0 := fun hp => by
    have : (lo, hi) = (250, 4000) := by
      obtain rfl | rfl := hp <;> exact (Option.some.inj hn).symm
    rw [this]; exact storedValue_period hp
  generalize storedValue n v (lo, hi) = w at hrange hperiod
  obtain ⟨h1, h2, h3, h4, h5, h6, h7, h8, h9, hA, hB⟩ := h
  obtain ⟨hge, hle⟩ | ⟨i, hge, hle, rfl⟩ | ⟨i, hge, hle, rfl⟩ := ident_cases (by rw [hn]; rfl)
  · interval_cases n <;> cases hn <;> (simp only [Params.write]; exact ⟨by assumption, by assumption, by assumption,
      by assumption, by assumption, by assumption, by assumption, by assumption, by assumption, hA, hB⟩)
  · obtain ⟨a1, a2, a3, a4, a5, a6, a7, a8, a9, a10⟩ := hA
    rw [ps.write_armA w hge hle]
    refine ⟨h1, h2, h3, h4, h5, h6, h7, h8, h9, ?_, hB⟩
    interval_cases i <;> cases hn <;> (simp only [ArmParams.write]; exact ⟨by assumption, by assumption, by assumption,
      by assumption, by assumption, by assumption, by assumption, by assumption, by first | exact hperiod (by omega) | assumption,
      by assumption⟩)
  · obtain ⟨a1, a2, a3, a4, a5, a6, a7, a8, a9, a10⟩ := hB
    rw [ps.write_armB w hge hle]
    refine ⟨h1, h2, h3, h4, h5, h6, h7, h8, h9, hA, ?_⟩
    interval_cases i <;> cases hn <;> (simp only [ArmParams.write]; exact ⟨by assumption, by assumption, by assumption,
      by assumption, by assumption, by assumption, by assumption, by assumption, by first | exact hperiod (by omega) | assumption,
      by assumption⟩)

/-- SET_PARAM and RESET alone write the parameter store (R156, R159). -/
theorem State.Serves.params {c : Instr} {s t : State} (h : State.Serves c s t) :
    t.params = s.params ∨ ∃ tag ident value range, c = .setParam tag ident value ∧ s.mode = .setup ∧
      paramRange ident.toNat = some range ∧
      t.params = s.params.write ident.toNat (storedValue ident.toNat value.toNat range) := by
  cases h with
  | sets tag ident value _ hmode range hrange => exact .inr ⟨tag, ident, value, range, rfl, hmode, hrange, rfl⟩
  | shifts _ p k source r =>
    left
    unfold State.settleShift
    dsimp only
    split
    · simp
    · simp
    · split
      · simp
      · split <;> simp
  | blocks tag c0 c1 r0 r1 =>
    left
    unfold blockRequest
    split
    · rfl
    · split
      · rfl
      · dsimp only; split <;> simp
  | unblocks tag c0 c1 r0 r1 =>
    left
    unfold unblockRequest
    split
    · rfl
    · split
      · rfl
      · simp
  | writes tag row start entries =>
    left
    unfold writeRowRequest
    split_ifs <;> rfl
  | stops =>
    left
    unfold stopRequest
    split
    · rfl
    · simp
  | _ => left; simp [State.joins, State.evicts]

theorem State.assertLine_params (s : State) : s.assertLine.params = s.params := by
  unfold State.assertLine
  dsimp only
  split <;> simp

theorem State.Does.params {c : Instr} {s t : State} (h : State.Does c s t) :
    t.params = s.params ∨ c = .reset ∧ t.params = .initial ∨
      ∃ tag ident value range, c = .setParam tag ident value ∧ s.mode = .setup ∧
        paramRange ident.toNat = some range ∧
        t.params = s.params.write ident.toNat (storedValue ident.toNat value.toNat range) := by
  cases h with
  | serves _ q _ u a hq htaken hu =>
    have hmoves := (State.Moves.refl s).afterReport q.port q.rep
    have hparams := hmoves.params_eq
    obtain hkept | ⟨tag, ident, value, range, hc, hmode, hrange, hwrite⟩ := hu.params
    · exact .inl (by simpa using hkept.trans hparams)
    · exact .inr (.inr ⟨tag, ident, value, range, hc, by rw [← hmoves.mode_eq]; exact hmode, hrange,
        by simpa [hparams] using hwrite⟩)
  | resets => exact .inr (.inl ⟨rfl, rfl⟩)
  | lineAsserted => exact .inl (by rw [State.assertLine_params])
  | released _ u hheld hu =>
    left
    simp only [State.placeRestarted_frame]
    rw [hu]
    split
    · rw [State.assertLine_params]
    · rfl
  | _ => left; simp

theorem State.Does.paramsLaw {c : Instr} {s t : State} (h : State.Does c s t) (hs : s.params.Law) : t.params.Law := by
  obtain hkept | ⟨-, hinitial⟩ | ⟨tag, ident, value, range, -, -, hrange, hwrite⟩ := h.params
  · rw [hkept]; exact hs
  · rw [hinitial]; decide
  · rw [hwrite]; exact hs.write value.toNat hrange

/-- Settles O56: the arm laws, the control fields and the parameter ranges over every command, the idle report section and
the passing of time. -/
theorem stepKeepsModeAndParameterLaws : Obligations.StepKeepsModeAndParameterLaws := by
  unfold Obligations.StepKeepsModeAndParameterLaws
  intro s t hmode hparams h
  exact step_keeps (P := fun s => s.ModeLaw ∧ s.params.Law)
    (fun c s t hdoes hs => ⟨State.ModeLaw.does hdoes hs.1, hdoes.paramsLaw hs.2⟩)
    (fun s rest hs => ⟨hs.1.of_arms (fun x => by have := hs.1.arms x; cases x <;> exact this) rfl rfl rfl rfl rfl
      fun _ p => by cases p <;> rfl, hs.2⟩)
    (fun s x rep _ hs => ⟨State.ModeLaw.takeSection hs.1 x rep, by simpa [State.takeSection] using hs.2⟩)
    (fun s n hs => ⟨State.ModeLaw.elapse hs.1 n, by simpa using hs.2⟩) ⟨hmode, hparams⟩ h

end Sys2Proof.Machine
end

section
/-! SUPPORT. What every command leaves of the ports, the pins and the queue of commands; and the statements on the step, on
reset, on the halt line and on exchanges. -/

namespace Sys2Proof.Machine

open Sys2Proof

/-! ### The ports under a command section -/

/-- Notices are raised over a run of moves after other notices. -/
theorem State.OnlyRaises.trans {s t u : State} (h : s.OnlyRaises t) (hu : t.OnlyRaises u) : s.OnlyRaises u :=
  fun p => (h p).trans (hu p)

theorem State.OnlyRaises.goOffline {s t : State} (h : s.OnlyRaises t) (x : Arm) : s.OnlyRaises (t.goOffline x) :=
  h.of_port_eq fun p => by simp

theorem State.OnlyRaises.clearClaims {s t : State} (h : s.OnlyRaises t) : s.OnlyRaises t.clearClaims := by
  have hclear : s.OnlyRaises { t with claims := .initial, queue := [], tiles := t.tiles.update fun _ r => r.stopped, closing := 0 } :=
    h.of_port_eq fun p => by cases p <;> rfl
  unfold State.clearClaims
  dsimp only
  split
  · exact hclear.raise .C _
  · exact hclear

theorem State.OnlyRaises.settleShift {s t : State} (h : s.OnlyRaises t) (p : Party) (k source : SlotNo) (r : Rect) :
    s.OnlyRaises (t.settleShift p k source r).1 := by
  have hgrant := h.grant ⟨p, k⟩ r (some source)
  unfold State.settleShift
  dsimp only
  split
  · exact hgrant.grantScan
  · exact hgrant
  · split
    · exact hgrant
    · split
      · exact (hgrant.releaseSlot p source).grantScan
      · exact hgrant

/-- Every withdrawal of a BLOCK is a run of moves (R94). -/
theorem State.Moves.withdrawAll {s t : State} (h : s.Moves t) (f : Tile → Bool) (l : List ClaimName) :
    s.Moves (l.foldl (withdrawOver f) t) := by
  refine List.foldlRecOn (motive := State.Moves s) l (withdrawOver f) h fun v hv n _ => ?_
  unfold withdrawOver
  split
  · exact hv
  · rename_i w hw
    split
    · exact hv
    · exact (hv.step (.remove v n w hw)).raise n.party _ (Notice.allowedAt_of_code_le _ (by simp [Notice.code]))

theorem State.onlyRaises_blockRequest (s : State) (c0 c1 r0 r1 : Byte) :
    s.OnlyRaises (blockRequest c0 c1 r0 r1 s).1 := by
  unfold blockRequest
  split
  · exact .refl s
  · split
    · exact .refl s
    · dsimp only
      generalize htiles : ({ s with tiles := _, closing := _ } : State) = u
      have hu : s.OnlyRaises u := by
        subst htiles; exact (State.OnlyRaises.refl s).of_port_eq fun p => by cases p <;> rfl
      have hwithdrawn (f : Tile → Bool) := hu.trans ((State.Moves.refl u).withdrawAll f s.queue).onlyRaises
      split
      · exact (hwithdrawn _).grantScan
      · exact hwithdrawn _

theorem State.onlyRaises_unblockRequest (s : State) (c0 c1 r0 r1 : Byte) :
    s.OnlyRaises (unblockRequest c0 c1 r0 r1 s).1 := by
  unfold unblockRequest
  split
  · exact .refl s
  · split
    · exact .refl s
    · exact (State.OnlyRaises.lowerClosing
        ((State.OnlyRaises.refl s).of_port_eq fun p => by cases p <;> rfl) _).grantScan

/-- A command section only raises notices, but for an ACK, which removes them at its own port (R170). -/
theorem State.Serves.onlyRaises {c : Instr} {s t : State} (h : State.Serves c s t) :
    s.OnlyRaises t ∨ ∃ p tag rep codes, c = .ack p tag rep codes ∧ t = s.setPort p ((s.port p).acknowledge codes) := by
  have hrefl := State.OnlyRaises.refl s
  have hports {u : State} (hu : ∀ p, u.port p = s.port p) : s.OnlyRaises u := hrefl.of_port_eq hu
  cases h with
  | unchanged => exact .inl hrefl
  | acknowledges p tag rep codes => exact .inr ⟨p, tag, rep, codes, rfl, rfl⟩
  | joins x => exact .inl (hports fun p => s.port_setArm x _ p)
  | leaves x => exact .inl (hrefl.goOffline x)
  | rearms x => exact .inl (hrefl.setGuard x _)
  | evicts x => exact .inl ((((State.Moves.refl s).evictClaims x).onlyRaises.grantScan.goOffline x).raise x.party _)
  | grants _ p k r => exact .inl (hrefl.grant ⟨p, k⟩ r none)
  | shifts _ p k source r => exact .inl (hrefl.settleShift p k source r)
  | queues _ p k r link => exact .inl (hports fun q => port_enqueue s p k r link q)
  | withdraws _ p k w _ hw => exact .inl ((State.Moves.refl s).step (.remove s _ w hw)).grantScan.onlyRaises
  | releases _ p k => exact .inl (hrefl.releaseSlot p k).grantScan
  | releasesTrip _ x => exact .inl ((State.Moves.refl s).step (.releaseTrip s x)).grantScan.onlyRaises
  | blocks tag c0 c1 r0 r1 => exact .inl (s.onlyRaises_blockRequest c0 c1 r0 r1)
  | unblocks tag c0 c1 r0 r1 => exact .inl (s.onlyRaises_unblockRequest c0 c1 r0 r1)
  | writes tag row start entries =>
    refine .inl (hports fun p => ?_)
    unfold writeRowRequest
    split_ifs <;> cases p <;> rfl
  | sets => exact .inl (hports fun p => by cases p <;> rfl)
  | starts => exact .inl (hports fun p => by cases p <;> rfl)
  | stops =>
    left
    unfold stopRequest
    split
    · exact hrefl
    · have hmode : s.OnlyRaises { ((s.clearClaims.goOffline .A).goOffline .B) with mode := .setup } :=
        ((hrefl.clearClaims.goOffline .A).goOffline .B).of_port_eq fun p => by cases p <;> rfl
      exact (hmode.raise .A _).raise .B _
  | halts => exact .inl (hrefl.haltCell .request)
  | clearsHalt => exact .inl (hports fun p => by cases p <;> rfl)

/-- A command section leaves the requests in processing, the replies and the output records (R163). -/
theorem State.Serves.exchange {c : Instr} {s t : State} (h : State.Serves c s t) (p : Party) : s.ExchangeKept t p := by
  obtain honly | ⟨q, tag, rep, codes, -, rfl⟩ := h.onlyRaises
  · exact honly.exchange p
  · by_cases hp : p = q
    · subst hp; simp [State.ExchangeKept, Port.acknowledge]
    · simp [State.ExchangeKept, State.port_setPort_of_ne s _ hp]

/-! ### The pins and the queue of commands -/

/-- The fields that no request moves. -/
abbrev State.Outer (s t : State) : Prop :=
  t.held = s.held ∧ t.haltPinLow = s.haltPinLow ∧ t.freeCount = s.freeCount ∧ t.pending = s.pending

theorem State.Serves.outer {c : Instr} {s t : State} (h : State.Serves c s t) : s.Outer t := by
  unfold State.Outer
  cases h with
  | shifts _ p k source r =>
    unfold State.settleShift
    dsimp only
    split
    · simp
    · simp
    · split
      · simp
      · split <;> simp
  | blocks tag c0 c1 r0 r1 =>
    unfold blockRequest
    split
    · simp [refuse]
    · split
      · simp [refuse]
      · dsimp only; split <;> simp
  | unblocks tag c0 c1 r0 r1 =>
    unfold unblockRequest
    split
    · simp [refuse]
    · split <;> simp [refuse]
  | writes tag row start entries =>
    unfold writeRowRequest
    split_ifs <;> simp [refuse]
  | stops =>
    unfold stopRequest
    split <;> simp
  | _ => simp [State.joins, State.evicts]

/-- An assertion of the halt line leaves the pins and the queue of commands. -/
theorem State.outer_assertLine (s : State) : s.Outer s.assertLine := by
  unfold State.Outer State.assertLine
  dsimp only
  split <;> simp

/-- Every command answers a next state (log 5). -/
theorem exec_next (c : Instr) (s : State) : ∃ t, exec c s = .next t := by
  cases hq : c.request with
  | some q =>
    by_cases htaken : s.taken q.port c = true
    · exact ⟨_, exec_of_taken hq htaken⟩
    · exact ⟨s, exec_of_not_taken hq (by simpa using htaken)⟩
  | none =>
    cases c with
    | exchangeEnd p f => simp only [exec, execExchangeEnd]; split_ifs <;> exact ⟨_, rfl⟩
    | overrun p f => simp only [exec, execOverrun]; split <;> exact ⟨_, rfl⟩
    | frameCheckRefusal p =>
      simp only [exec, execFrameCheckRefusal]
      split
      · exact ⟨_, rfl⟩
      · split <;> exact ⟨_, rfl⟩
    | reportPeriodExpiry x => simp only [exec, execReportPeriodExpiry]; split <;> exact ⟨_, rfl⟩
    | waitLimitExpiry p k =>
      simp only [exec, execWaitLimitExpiry]
      split
      · split <;> exact ⟨_, rfl⟩
      all_goals exact ⟨_, rfl⟩
    | yieldTime p k =>
      simp only [exec, execYieldTime]
      split
      · split <;> exact ⟨_, rfl⟩
      all_goals exact ⟨_, rfl⟩
    | haltLineAssertion => exact ⟨_, rfl⟩
    | haltLineRelease => exact ⟨_, rfl⟩
    | reset => exact ⟨_, rfl⟩
    | resetRelease => simp only [exec, execResetRelease]; split <;> exact ⟨_, rfl⟩
    | _ => cases hq

/-- What a command may do to the pins, to the held level, to the queue of commands and to the count of free values. -/
theorem State.Does.outer {c : Instr} {s t : State} (h : State.Does c s t) :
    t.pending = s.pending ∧ (t.held ≠ s.held → c = .reset ∨ c = .resetRelease) ∧
    (t.haltPinLow ≠ s.haltPinLow → c = .haltLineAssertion ∨ c = .haltLineRelease) ∧ s.freeCount ≤ t.freeCount := by
  have houter {u : State} (hu : s.Outer u) : u.pending = s.pending ∧ (u.held ≠ s.held → c = .reset ∨ c = .resetRelease) ∧
      (u.haltPinLow ≠ s.haltPinLow → c = .haltLineAssertion ∨ c = .haltLineRelease) ∧ s.freeCount ≤ u.freeCount := by
    obtain ⟨hheld, hpin, hfree, hpending⟩ := hu
    exact ⟨hpending, fun hne => absurd hheld hne, fun hne => absurd hpin hne, hfree.ge⟩
  have hmoves {u : State} (hu : s.Moves u) : s.Outer u := by
    obtain ⟨-, -, -, -, hheld, hpin, hfree, hpending⟩ := hu.control
    exact ⟨hheld, hpin, hfree, hpending⟩
  cases h with
  | serves _ q _ u a hq htaken hu =>
    have hreport := hmoves ((State.Moves.refl s).afterReport q.port q.rep)
    refine houter ?_
    obtain ⟨h1, h2, h3, h4⟩ := hu.outer
    simp [State.Outer, h1, h2, h3, h4, hreport]
  | periodExpires x _ hx => exact houter (hmoves ((State.Moves.refl s).periodExpiry x hx))
  | lineAsserted _ hheld =>
    obtain ⟨h1, -, h3, h4⟩ := State.outer_assertLine { s with haltPinLow := true }
    exact ⟨h4, fun hne => absurd h1 hne, fun _ => .inl rfl, h3.ge⟩
  | lineReleased => exact ⟨rfl, fun hne => absurd rfl hne, fun _ => .inr rfl, le_rfl⟩
  | heldLine _ hc => exact ⟨rfl, fun hne => absurd rfl hne, fun _ => hc, le_rfl⟩
  | resets => exact ⟨rfl, fun _ => .inl rfl, fun hne => absurd rfl hne, le_rfl⟩
  | released _ u hheld hu =>
    have hu' : u.pending = s.pending ∧ u.haltPinLow = s.haltPinLow ∧ u.freeCount = s.freeCount := by
      rw [hu]
      split
      · obtain ⟨-, h2, h3, h4⟩ := State.outer_assertLine { s with held := false }
        exact ⟨h4, h2, h3⟩
      · exact ⟨rfl, rfl, rfl⟩
    simp [hu']
  | heldExchange p f _ hheld g n => simp
  | _ => exact houter (by unfold State.Outer; simp)

/-- Settles O2, by what each command may do. -/
theorem everyCommandAnswers : Obligations.EveryCommandAnswers := by
  unfold Obligations.EveryCommandAnswers
  intro c s
  obtain ⟨t, ht⟩ := exec_next c s
  exact ⟨t, ht, (State.does_of_exec ht).outer⟩

/-- Settles O1, by the definition of the step. -/
theorem stepRunsFrontCommand : Obligations.StepRunsFrontCommand := by
  unfold Obligations.StepRunsFrontCommand
  intro c rest s h
  unfold step
  rw [h]

/-! ### The idle step (R49, R92, R93, R163) -/

/-- No report section is due at either Arm Port. -/
theorem idle_of_no_section {s : State} (h : ∀ x rep, ¬s.SectionDue x rep) :
    idle s = s.dueEvent.elim (.next (s.elapse Config.tick)) fun c => exec c s := by
  have hnone (x : Arm) : s.reportDue x = none := Option.eq_none_iff_forall_ne_some.mpr fun rep hrep =>
    h x rep ((s.sectionDue_iff x rep).mpr hrep)
  unfold idle
  rw [hnone .A, hnone .B]
  cases s.dueEvent <;> rfl

theorem idle_takes_section {s : State} {x : Arm} {rep : Report} (h : s.SectionDue x rep)
    (hfirst : x = .B → ∀ r, ¬s.SectionDue .A r) : idle s = .next (s.takeSection x rep) := by
  have hdue := (s.sectionDue_iff x rep).mp h
  unfold idle
  cases x with
  | A => rw [hdue]
  | B =>
    have hnone : s.reportDue .A = none := Option.eq_none_iff_forall_ne_some.mpr fun r hr =>
      hfirst rfl r ((s.sectionDue_iff .A r).mpr hr)
    rw [hnone, hdue]

theorem State.periodDue_eq_some {s : State} {x : Arm} (h : (s.arm x).monitor.timer = some 0) :
    s.periodDue x = some (.reportPeriodExpiry x) := by
  simp only [State.periodDue, h]

theorem State.periodDue_eq_none {s : State} {x : Arm} (h : (s.arm x).monitor.timer ≠ some 0) : s.periodDue x = none := by
  unfold State.periodDue
  split
  · exact absurd ‹_› h
  · rfl

/-- With no timer of an arm due, the event is that of the first claim of the queue that is due. -/
theorem State.dueEvent_of_no_period {s : State} (h : ∀ x, (s.arm x).monitor.timer ≠ some 0) :
    s.dueEvent = s.waiters.findSome? s.waitDue := by
  unfold State.dueEvent
  rw [State.periodDue_eq_none (h .A), State.periodDue_eq_none (h .B)]

theorem State.waitDue_eq_none {s : State} {w : Waiter}
    (h : ¬(0 < s.params.waitLimit ∧ s.params.waitLimit * 1000 ≤ w.wait.age) ∧
      ¬(s.params.yieldPatience * 1000 ≤ w.wait.age ∧ w.wait.asked = false)) : s.waitDue w = none := by
  unfold State.waitDue
  rw [if_neg h.1, if_neg h.2]

/-- Settles O3, by the order in which an idle step looks for what is due. -/
theorem idleStep : Obligations.IdleStep := by
  unfold Obligations.IdleStep
  intro s hpending
  rw [step_idle hpending]
  refine ⟨fun x rep hdue hfirst => ?_, fun hnone => ?_⟩
  · have hkept (p : Party) : s.ExchangeKept (s.takeReport x.party (some rep)) p :=
      ((State.OnlyRaises.refl s).takeReport x.party (some rep)).exchange p
    obtain ⟨hprocessing, -, hreply, hshifted⟩ := hkept x.party
    refine ⟨s.takeSection x rep, idle_takes_section hdue hfirst, fun p hp => ?_, ?_, ?_, ?_, rfl⟩
    · unfold State.takeSection State.ExchangeKept
      rw [State.port_setPort_of_ne _ _ hp]
      exact hkept p
    · simp only [State.takeSection, State.port_setPort, hprocessing]
    · simp only [State.takeSection, State.port_setPort, hreply]
    · simp only [State.takeSection, State.port_setPort, hshifted]
  · rw [idle_of_no_section hnone]
    refine ⟨fun hA => ?_, fun hA hB => ?_, fun htimers => ⟨fun before w behind hwaiters hbefore => ?_, fun hwaiters => ?_⟩⟩
    · simp only [State.dueEvent, State.periodDue_eq_some hA, Option.elim_some]
    · simp only [State.dueEvent, State.periodDue_eq_none hA, State.periodDue_eq_some hB, Option.elim_some]
    · have hskip : before.findSome? s.waitDue = none :=
        List.findSome?_eq_none_iff.mpr fun v hv => State.waitDue_eq_none (hbefore v hv)
      have hdue {c : Instr} (h : s.waitDue w = some c) : s.dueEvent = some c := by
        rw [State.dueEvent_of_no_period htimers, hwaiters, List.findSome?_append, hskip, Option.none_or,
          List.findSome?_cons, h]
      refine ⟨fun hexpired => ?_, fun hexpired hasks => ?_⟩
      · rw [hdue (if_pos hexpired), Option.elim_some]
      · rw [hdue ((if_neg hexpired).trans (if_pos hasks)), Option.elim_some]
    · have hnever : s.dueEvent = none := by
        rw [State.dueEvent_of_no_period htimers]
        exact List.findSome?_eq_none_iff.mpr fun v hv => State.waitDue_eq_none (hwaiters v hv)
      rw [hnever]
      refine ⟨s.elapse Config.tick, rfl, fun x => ?_, fun p k => ?_, fun x => ?_, ?_⟩
      · cases x <;> rfl
      · rw [State.slot_elapse]
        cases s.slot p k <;> rfl
      · cases x <;> rfl
      · rfl

/-! ### Reset and the halt line (R148, R153, R156) -/

/-- What an assertion of the halt line does outside GUARDING: the level and HALT_LINE alone. -/
theorem State.assertLine_of_not_guarding {s : State} (h : s.mode ≠ .guarding) :
    s.assertLine = { s with haltLevel := true, portC := s.portC.raise (.haltLine s.mode) } := by
  unfold State.assertLine
  dsimp only
  rw [if_neg h]
  rfl

/-- Settles O4: the values are those of the definition, and the laws are checked at this one state. -/
theorem resetValues : Obligations.ResetValues := by
  unfold Obligations.ResetValues
  refine ⟨rfl, rfl, rfl, rfl, fun t => TileMap.get_initial t, fun p k => ?_, fun x => ?_, fun x => ?_, fun p => ?_, ?_,
    State.lawful_of_check (by decide +kernel), fun w hw => ?_, ?_⟩
  · cases p <;> (revert k; decide)
  · cases x <;> rfl
  · cases x <;> rfl
  · cases p <;> exact ⟨rfl, rfl, rfl, rfl, rfl⟩
  · decide
  · cases hw
  · have hno (p : Party) : State.reset.partyWaitsOn p = ⟨false, false, false⟩ := rfl
    intro x y z
    simp only [hno]
    cases x <;> cases y <;> simp [PartySet.has]

/-- Settles O5: RESET is the state of the reset values, and RESET_RELEASE outside GUARDING is an assertion of the line
without a halt, or none. -/
theorem resetAndItsRelease : Obligations.ResetAndItsRelease := by
  unfold Obligations.ResetAndItsRelease
  refine ⟨fun s => ⟨_, rfl, rfl, rfl, rfl, rfl, fun x => ?_, fun p => ?_⟩, fun s hheld hmode => ?_⟩
  · cases x <;> rfl
  · cases p <;> rfl
  · have hsetup : s.mode ≠ .guarding := by simp [hmode]
    simp only [exec, execResetRelease, hheld, if_true]
    by_cases hpin : s.haltPinLow = true
    · refine ⟨_, rfl, ?_⟩
      simp only [hpin, if_true]
      rw [State.assertLine_of_not_guarding (by exact hsetup)]
      refine ⟨rfl, rfl, ?_, ?_, fun p => ?_, fun p hp => ?_, ?_⟩
      · simp only [hmode]; rfl
      · simp only [true_or, iff_true]; rfl
      · cases p <;> exact ⟨rfl, rfl, rfl, rfl⟩
      · cases p with
        | A => exact ⟨rfl, rfl⟩
        | B => exact ⟨rfl, rfl⟩
        | C => exact absurd rfl hp
      · rfl
    · refine ⟨_, rfl, ?_⟩
      simp only [hpin, if_false, Bool.false_eq_true]
      refine ⟨rfl, by simp, rfl, ?_, fun p => ?_, fun p hp => ?_, rfl⟩
      · simp only [false_or]; rfl
      · cases p <;> exact ⟨rfl, rfl, rfl, rfl⟩
      · cases p with
        | A => exact ⟨rfl, rfl⟩
        | B => exact ⟨rfl, rfl⟩
        | C => exact absurd rfl hp

/-- Settles O9, by the definition of the two commands. -/
theorem haltLineOutsideGuarding : Obligations.HaltLineOutsideGuarding := by
  unfold Obligations.HaltLineOutsideGuarding
  intro s
  refine ⟨fun hheld hmode => ?_, fun hheld => ?_, fun hheld => ⟨?_, ?_⟩⟩
  · simp only [exec, execHaltLineAssertion, hheld, if_false, Bool.false_eq_true]
    rw [State.assertLine_of_not_guarding (by exact hmode)]
  · simp [exec, execHaltLineRelease, hheld]
  · simp [exec, execHaltLineAssertion, hheld]
  · simp [exec, execHaltLineRelease, hheld]

/-! ### The mode comes first (R149) -/

/-- A command section finds the wrong mode before anything else (R149). -/
theorem Instr.command_of_wrong_mode {c : Instr} {s : State} (h : takenIn c s.mode = false) :
    c.command s = refuse s .wrongMode := by
  cases c <;> simp only [takenIn, Bool.true_eq_false, beq_eq_false_iff_ne, bne_eq_false_iff_eq] at h <;>
    simp [Instr.command, claimRequest, shiftRequest, joinRequest, clearTripRequest, blockRequest, unblockRequest,
      writeRowRequest, setParamRequest, startRequest, haltRequest, clearHaltRequest, releaseRequest, h]

/-- Settles O10: the report that a request carries leaves the mode, and the command section looks at the mode first. -/
theorem wrongModeComesFirst : Obligations.WrongModeComesFirst := by
  unfold Obligations.WrongModeComesFirst
  intro c q s hq htaken hmode
  rw [exec_of_taken hq htaken, Instr.command_of_wrong_mode (by simpa using hmode)]
  rfl

/-! ### Requests and their replies (R163) -/

/-- Settles O12: the reply is placed over the state that the command section leaves, which has left the other ports'
exchanges. -/
theorem everyTakenRequestIsAnswered : Obligations.EveryTakenRequestIsAnswered := by
  unfold Obligations.EveryTakenRequestIsAnswered
  intro c q s hq htaken
  have hreport (p : Party) := ((State.Moves.refl s).afterReport q.port q.rep).exchange p
  have hserved (p : Party) := (State.serves_command c (s.afterReport q.port q.rep)).exchange p
  rw [exec_of_taken hq htaken]
  generalize c.command (s.afterReport q.port q.rep) = r at hserved ⊢
  refine ⟨_, r.1.replyBody q.port q.tag q.kind r.2, rfl, ?_⟩
  have hstatus : r.1.status q.port = (r.1.placeReply q.port q.tag q.kind r.2).status q.port := by
    cases hp : q.port <;> rfl
  have hshifted := (hserved q.port).2.2.2.trans (hreport q.port).2.2.2
  refine ⟨by simp, by simp, by simp, by simpa using hshifted, rfl, rfl, by simp [State.replyBody], by simp [State.replyBody],
    by simp [State.replyBody], hstatus, by simp [State.replyBody], ?_, fun p hp => ?_⟩
  · simp [State.replyBody, Port.exception]
  · obtain ⟨h1, h2, h3, h4⟩ := hserved p
    obtain ⟨k1, k2, k3, k4⟩ := hreport p
    unfold State.ExchangeKept
    rw [State.port_placeReply_of_ne _ _ _ _ hp]
    exact ⟨h1.trans k1, h2.trans k2, h3.trans k3, h4.trans k4⟩

/-- Settles O13, by the condition of each command. -/
theorem eventsThatCannotHappen : Obligations.EventsThatCannotHappen := by
  unfold Obligations.EventsThatCannotHappen
  intro s
  refine ⟨fun c q hq htaken => exec_of_not_taken hq htaken, fun p f hidle => ?_, fun p hidle => ?_,
    fun p f hheld hbusy => ?_, fun x htimer => ?_, fun p k hslot => ?_, fun hheld => ?_⟩
  · simp only [exec, execOverrun, hidle]
  · simp only [exec, execFrameCheckRefusal, hidle]
  · simp [exec, execExchangeEnd, hheld, hbusy]
  · simp only [exec, execReportPeriodExpiry, htimer]
  · cases hs : s.slot p k with
    | pending r w l => simp [hs, Claim.state] at hslot
    | _ => simp only [exec, execWaitLimitExpiry, execYieldTime, hs, and_self]
  · simp [exec, execResetRelease, hheld]

end Sys2Proof.Machine
end

section
/-! SUPPORT. The frame checks of R165 in terms of the bytes of a frame, the requests that accepted frames spell, and what
exchanges shift out. -/

namespace Sys2Proof

/-! ### The frame checks (R165) -/

/-- The body length that a frame names. -/
def Frame.bodyLength (f : Frame) : Nat := (f.bytes.getD 2 0).toNat

/-- The body of a frame, report section and command section. -/
def Frame.body (f : Frame) : List Byte := (f.bytes.drop 3).take f.bodyLength

/-- What the body of a frame of an accepted kind spells at a port (R165 checks 6 and 7). -/
def Frame.spelled (p : Party) (f : Frame) : Option Instr :=
  (splitReport p (f.bytes.getD 1 0) f.body).bind fun r => commandOf p f.kindByte f.tag r.1 r.2

theorem decodeFrame_of_extra {p : Party} {f : Frame} (h : f.extra ≠ []) : decodeFrame p f = .refused .badFrame := by
  unfold decodeFrame
  rw [if_pos h]

theorem decodeFrame_of_short {p : Party} {f : Frame} (h : f.bytes.length < 4) : decodeFrame p f = .refused .badFrame := by
  unfold decodeFrame
  split
  · rfl
  · split
    · rename_i kind tagByte len rest hbytes
      have : rest = [] := by
        rw [hbytes] at h
        simp only [List.length_cons] at h
        exact List.length_eq_zero_iff.mp (by omega)
      rw [if_pos this]
    · rfl

/-- The frame checks after the first two, in their order (R165). -/
theorem decodeFrame_of_bytes {p : Party} {f : Frame} (hextra : f.extra = []) (hlength : 4 ≤ f.bytes.length) :
    decodeFrame p f =
      if 60 < f.bodyLength ∨ f.bytes.length < f.bodyLength + 4 then .refused .badFrame
      else if xorAll (f.bytes.take (f.bodyLength + 4)) ≠ 0 then .refused .badCheck
      else if kindAccepted p f.kindByte = false then .refused .badKind
      else (f.spelled p).elim (.refused .badFrame) .accepted := by
  obtain ⟨bytes, extra⟩ := f
  dsimp only at hextra hlength
  match bytes, hlength with
  | kind :: tagByte :: len :: last :: rest, _ =>
    have hbeyond : ((last :: rest).length < len.toNat + 1) =
        ((kind :: tagByte :: len :: last :: rest).length < len.toNat + 4) := by
      simp only [List.length_cons, eq_iff_iff]; omega
    simp only [decodeFrame, hextra, ne_eq, not_true, if_false, reduceCtorEq, hbeyond, Frame.bodyLength, Frame.kindByte,
      Frame.spelled, Frame.body, Frame.tag, List.getD_cons_zero, List.getD_cons_succ, List.drop_succ_cons, List.drop_zero]
    split_ifs
    · rfl
    · rfl
    · cases splitReport p tagByte ((last :: rest).take len.toNat) with
      | none => rfl
      | some r =>
        dsimp only [Option.bind_some]
        cases commandOf p kind (tagByte.extractLsb' 0 4) r.1 r.2 <;> rfl
    · rfl

/-- A frame that passes the checks (R165). -/
theorem decodeFrame_accepted_iff {p : Party} {f : Frame} {c : Instr} :
    decodeFrame p f = .accepted c ↔
      f.extra = [] ∧ f.bodyLength ≤ 60 ∧ f.bodyLength + 4 ≤ f.bytes.length ∧
        xorAll (f.bytes.take (f.bodyLength + 4)) = 0 ∧ kindAccepted p f.kindByte = true ∧ f.spelled p = some c := by
  by_cases hextra : f.extra = []
  · by_cases hlength : 4 ≤ f.bytes.length
    · rw [decodeFrame_of_bytes hextra hlength]
      split_ifs with hn hxor hkind
      · simp only [false_iff]; omega
      · simp only [false_iff]
        rintro ⟨-, -, -, hzero, -⟩
        exact hxor hzero
      · simp [hkind]
      · have hchecks : f.bodyLength ≤ 60 ∧ f.bodyLength + 4 ≤ f.bytes.length := by omega
        cases hs : f.spelled p <;> simp_all
    · rw [decodeFrame_of_short (by omega)]
      simp only [reduceCtorEq, false_iff]; omega
  · simp [decodeFrame_of_extra hextra, hextra]

end Sys2Proof

namespace Sys2Proof.Machine

open Sys2Proof

/-- A taken request that fails a check is answered with its refusal, its tag and its kind as received (R165). -/
theorem exec_frameCheckRefusal {p : Party} {f : Frame} {s : State} {r : FrameRefusal}
    (hport : (s.port p).processing = some f) (h : decodeFrame p f = .refused r) :
    exec (.frameCheckRefusal p) s = .next (s.placeReply p f.tag f.kindByte ⟨frameResult r, false, .empty⟩) := by
  simp only [exec, execFrameCheckRefusal, hport, h]

end Sys2Proof.Machine

namespace Sys2Proof

/-- A report section that stands at the Cell Port, has more than 2 probes, or is longer than the body is refused. -/
theorem splitReport_eq_none {p : Party} {tagByte : Byte} {body : List Byte} (hflag : tagByte.getLsbD 7 = true)
    (h : p = .C ∨ 2 < (body.getD 0 0).toNat % 16 ∨ body.length < 1 + 9 * ((body.getD 0 0).toNat % 16)) :
    splitReport p tagByte body = none := by
  have hnibble (b : Byte) : (b.extractLsb' 0 4).toNat = b.toNat % 16 := by simp [BitVec.extractLsb'_toNat]
  unfold splitReport
  rw [if_pos hflag]
  split
  · rfl
  · rfl
  · rename_i cb more hC
    obtain rfl | h | h := h
    · exact absurd rfl hC
    · rw [if_pos (.inl (by simpa [hnibble] using h))]
    · simp only [List.getD_cons_zero, List.length_cons] at h
      have hbeyond : more.length < 9 * (cb.extractLsb' 0 4).toNat := by rw [hnibble]; omega
      rw [if_pos (.inr hbeyond)]

theorem splitReport_of_flag_clear {p : Party} {tagByte : Byte} (h : tagByte.getLsbD 7 = false) (body : List Byte) :
    splitReport p tagByte body = some (none, body) := by
  unfold splitReport
  rw [h, if_neg Bool.false_ne_true]

/-- A report section at an Arm Port, by its count byte (R165 check 6). -/
theorem splitReport_of_flag_set {p : Party} {tagByte cb : Byte} {more : List Byte} (h : tagByte.getLsbD 7 = true)
    (hp : p ≠ .C) :
    splitReport p tagByte (cb :: more) =
      if 2 < (cb.extractLsb' 0 4).toNat ∨ more.length < 9 * (cb.extractLsb' 0 4).toNat then none
      else some (some ⟨cb.extractLsb' 4 4, parseProbes (cb.extractLsb' 0 4).toNat more⟩,
        more.drop (9 * (cb.extractLsb' 0 4).toNat)) := by
  unfold splitReport
  rw [if_pos h]
  cases p with
  | A => rfl
  | B => rfl
  | C => exact absurd rfl hp

/-! ### Every request spells itself -/

/-- A report section that a request may carry is split from its body as it was joined (R166). -/
theorem splitReport_bodyBytes {q : Request} (h : ∀ r, q.rep = some r → q.port ≠ .C ∧ r.probes.length ≤ 2) :
    splitReport q.port q.tagByte q.bodyBytes = some (q.rep, q.body) := by
  obtain ⟨port, tag, rep, kind, body⟩ := q
  cases rep with
  | none =>
    have hflag : ((0 : BitVec 4) ++ tag : Byte).getLsbD 7 = false := by
      rw [BitVec.getLsbD_append]; simp
    exact splitReport_of_flag_clear hflag body
  | some r =>
    obtain ⟨hport, hprobes⟩ := h r rfl
    have hflag : ((0x8 : BitVec 4) ++ tag : Byte).getLsbD 7 = true := by
      rw [BitVec.getLsbD_append]; simp
    have hcount : ((r.count ++ BitVec.ofNat 4 r.probes.length : Byte).extractLsb' 0 4).toNat = r.probes.length := by
      rw [BitVec.extractLsb'_append_eq_right]; simp; omega
    have htag : (r.count ++ BitVec.ofNat 4 r.probes.length : Byte).extractLsb' 4 4 = r.count := by
      rw [BitVec.extractLsb'_append_eq_left]
    have hlength : (r.probes.flatMap Probe.bytes).length = 9 * r.probes.length := by
      have := r.bytes_length
      simp only [Report.bytes, List.length_cons] at this
      omega
    have hdrop : (r.probes.flatMap Probe.bytes ++ body).drop (9 * r.probes.length) = body := by
      rw [← hlength, List.drop_left]
    have hfits : ¬(2 < r.probes.length ∨ (r.probes.flatMap Probe.bytes ++ body).length < 9 * r.probes.length) := by
      simp only [List.length_append, hlength]; omega
    refine (splitReport_of_flag_set (more := r.probes.flatMap Probe.bytes ++ body) hflag hport).trans ?_
    rw [hcount, if_neg hfits, parseProbes_bytes, htag, hdrop]

/-- Every command that is a request follows the law of its kind (R165, R167). -/
theorem Laws.RequestSpells.all (c : Instr) : Laws.RequestSpells.Statement c := by
  cases c with
  | exchangeEnd p f => exact exchangeEnd p f
  | overrun p f => exact overrun p f
  | nop p tag rep => exact nop p tag rep
  | ack p tag rep codes => exact ack p tag rep codes
  | readRow p tag rep row => exact readRow p tag rep row
  | join x tag rep epoch => exact join x tag rep epoch
  | leave x tag rep => exact leave x tag rep
  | clearTrip x tag rep => exact clearTrip x tag rep
  | readTrip p tag rep arm => exact readTrip p tag rep arm
  | claim p tag rep c0 c1 r0 r1 => exact claim p tag rep c0 c1 r0 r1
  | shift p tag rep source c0 c1 r0 r1 => exact shift p tag rep source c0 c1 r0 r1
  | release p tag rep slot => exact release p tag rep slot
  | block tag c0 c1 r0 r1 => exact block tag c0 c1 r0 r1
  | unblock tag c0 c1 r0 r1 => exact unblock tag c0 c1 r0 r1
  | writeRow tag row start entries => exact writeRow tag row start entries
  | setParam tag ident value => exact setParam tag ident value
  | getParam tag ident => exact getParam tag ident
  | start tag => exact Laws.RequestSpells.start tag
  | stop tag => exact stop tag
  | halt tag => exact halt tag
  | clearHalt tag => exact clearHalt tag
  | evict tag arm => exact evict tag arm
  | readClaims tag party => exact readClaims tag party
  | readQueue tag => exact readQueue tag
  | readArm tag arm => exact readArm tag arm
  | reportPeriodExpiry x => exact reportPeriodExpiry x
  | waitLimitExpiry p k => exact waitLimitExpiry p k
  | yieldTime p k => exact yieldTime p k
  | haltLineAssertion => exact haltLineAssertion
  | haltLineRelease => exact haltLineRelease
  | reset => exact reset
  | resetRelease => exact resetRelease
  | frameCheckRefusal p => exact frameCheckRefusal p

/-- Settles O17: the frame of a request passes each check by its own layout, and its body splits as it was joined. -/
theorem decodeOfEncodedFrame : Obligations.DecodeOfEncodedFrame := by
  unfold Obligations.DecodeOfEncodedFrame
  intro c fill hwf hreq
  obtain ⟨q, hq⟩ := Option.isSome_iff_exists.mp hreq
  obtain ⟨hkind, hlength, hrep, hcommand⟩ := Laws.RequestSpells.all c q hq hwf
  refine ⟨q, q.frame, hq, by simp [encodeFrame, hq], decodeFrame_accepted_iff.mpr ?_⟩
  obtain ⟨hframe, hxor, -⟩ := q.frame_spec
  have hlen : Frame.bodyLength ⟨q.frame.bytes ++ fill, []⟩ = q.bodyBytes.length := by
    simp [Frame.bodyLength, Request.frame, Nat.mod_eq_of_lt (show q.bodyBytes.length < 256 by omega)]
  have hbody : Frame.body ⟨q.frame.bytes ++ fill, []⟩ = q.bodyBytes := by
    unfold Frame.body
    rw [hlen]
    simp [Request.frame]
  have htag : q.tagByte.extractLsb' 0 4 = q.tag := by
    unfold Request.tagByte
    rw [BitVec.extractLsb'_append_eq_right]
  refine ⟨rfl, by omega, ?_, ?_, hkind, ?_⟩
  · rw [hlen, List.length_append]; omega
  · rw [hlen, ← hframe, List.take_left]; exact hxor
  · have hsplit := splitReport_bodyBytes hrep
    unfold Frame.spelled
    rw [hbody]
    simp [Request.frame, Frame.kindByte, Frame.tag, hsplit, htag, hcommand]

/-! ### Every accepted frame was read whole -/

/-- The bytes of the probe records read are those that were there (R166). -/
theorem bytes_parseProbes {n : Nat} {more : List Byte} (h : 9 * n ≤ more.length) :
    (parseProbes n more).flatMap Probe.bytes = more.take (9 * n) ∧ (parseProbes n more).length = n := by
  induction n generalizing more with
  | zero => cases more <;> simp [parseProbes]
  | succ n ih =>
    have hnine : 9 ≤ more.length := by omega
    match more, hnine with
    | k :: x1 :: x0 :: y1 :: y0 :: u1 :: u0 :: v1 :: v0 :: rest, _ =>
      obtain ⟨hbytes, hlength⟩ := ih (more := rest) (by simp only [List.length_cons] at h; omega)
      have htake : 9 * (n + 1) = 9 * n + 9 := by omega
      simp [parseProbes, Probe.bytes, hbytes, hlength, htake]

/-- What check 6 lets pass, with the body that it came from (R165, R166). -/
theorem splitReport_eq_some {p : Party} {tagByte : Byte} {body command : List Byte} {rep : Option Report}
    (h : splitReport p tagByte body = some (rep, command)) :
    reportAllowed p rep = true ∧ (tagByte.getLsbD 7 = true ↔ rep.isSome = true) ∧
      ∀ tag kind, Request.bodyBytes ⟨p, tag, rep, kind, command⟩ = body := by
  by_cases hflag : tagByte.getLsbD 7 = true
  · have hport : p ≠ .C := fun hp => by rw [splitReport_eq_none hflag (.inl hp)] at h; cases h
    match body with
    | [] => rw [splitReport_eq_none hflag (.inr (.inr (by simp)))] at h; cases h
    | cb :: more =>
      rw [splitReport_of_flag_set hflag hport] at h
      split at h
      · cases h
      · rename_i hfits
        cases h
        obtain ⟨hbytes, hlength⟩ := bytes_parseProbes (n := (cb.extractLsb' 0 4).toNat) (more := more) (by omega)
        have hcount : (cb.extractLsb' 4 4 ++ cb.extractLsb' 0 4 : Byte) = cb := by
          refine BitVec.eq_of_getLsbD_eq fun i hi => ?_
          rw [BitVec.getLsbD_append]
          split_ifs with h4
          · simp [h4]
          · have h1 : i - 4 < 4 := by omega
            have h2 : 4 + (i - 4) = i := by omega
            simp [h1, h2]
        have hprobes : (parseProbes (cb.extractLsb' 0 4).toNat more).length ≤ 2 := by omega
        refine ⟨?_, by simp [hflag], fun tag kind => ?_⟩
        · cases p with
          | A => exact decide_eq_true hprobes
          | B => exact decide_eq_true hprobes
          | C => exact absurd rfl hport
        · simp only [Request.bodyBytes, Report.bytes, hbytes, hlength, BitVec.ofNat_toNat, BitVec.setWidth_eq, hcount,
            List.cons_append, List.take_append_drop]
  · rw [splitReport_of_flag_clear (by simpa using hflag)] at h
    cases h
    exact ⟨by cases p <;> rfl, ⟨fun ht => absurd ht hflag, fun hs => by cases hs⟩, fun _ _ => rfl⟩

/-- The kind of a request of every port is that of the command that it spells (R167). -/
theorem commonCommand_eq_some {p : Party} {kind : Byte} {tag : BitVec 4} {rep : Option Report} {body : List Byte} {c : Instr}
    (h : commonCommand p kind.toNat tag rep body = some c) (hrep : reportAllowed p rep = true) :
    c.request = some ⟨p, tag, rep, kind, body⟩ ∧ c.wf = true := by
  have hkind {n : Nat} (hn : kind.toNat = n) : kind = BitVec.ofNat 8 n := by
    rw [← hn, BitVec.ofNat_toNat, BitVec.setWidth_eq]
  unfold commonCommand at h
  split at h
  case h_1 hn => cases h; rw [hkind hn]; exact ⟨rfl, hrep⟩
  case h_2 hn =>
    split at h
    · rename_i hlength
      cases h; rw [hkind hn]; exact ⟨rfl, by simp [Instr.wf, hrep, hlength]⟩
    · cases h
  case h_3 hn => cases h; rw [hkind hn]; exact ⟨rfl, hrep⟩
  case h_4 hn =>
    split at h
    · cases h
    · rename_i hp
      cases h; rw [hkind hn]; exact ⟨rfl, by simp [Instr.wf, hrep, hp]⟩
  case h_5 hn =>
    split at h
    · rename_i hp
      subst hp
      cases h; rw [hkind hn]; exact ⟨rfl, by simp only [Instr.wf, hrep]; rfl⟩
    · cases h
  case h_6 hn => cases h; rw [hkind hn]; exact ⟨rfl, hrep⟩
  case h_7 hn => cases h; rw [hkind hn]; exact ⟨rfl, hrep⟩
  case h_8 hn => cases h; rw [hkind hn]; exact ⟨rfl, hrep⟩
  case h_9 => cases h

theorem armCommand_eq_some {x : Arm} {kind : Byte} {tag : BitVec 4} {rep : Option Report} {body : List Byte} {c : Instr}
    (h : armCommand x kind.toNat tag rep body = some c) (hrep : reportAllowed x.party rep = true) :
    c.request = some ⟨x.party, tag, rep, kind, body⟩ ∧ c.wf = true := by
  have hkind {n : Nat} (hn : kind.toNat = n) : kind = BitVec.ofNat 8 n := by
    rw [← hn, BitVec.ofNat_toNat, BitVec.setWidth_eq]
  unfold armCommand at h
  split at h
  case h_4 => cases h
  all_goals
    rename_i hn
    cases h; rw [hkind hn]; exact ⟨rfl, hrep⟩

theorem cellCommand_eq_some {kind : Byte} {tag : BitVec 4} {body : List Byte} {c : Instr}
    (h : cellCommand kind.toNat tag body = some c) (hlength : body.length ≤ 60) (hk : kind.toNat ∈ kindsOfCell) :
    c.request = some ⟨.C, tag, none, kind, body⟩ ∧ c.wf = true := by
  have hkind {n : Nat} (hn : kind.toNat = n) : kind = BitVec.ofNat 8 n := by
    rw [← hn, BitVec.ofNat_toNat, BitVec.setWidth_eq]
  simp only [kindsOfCell, List.mem_cons, List.not_mem_nil, or_false] at hk
  rcases hk with hn | hn | hn | hn | hn | hn | hn | hn | hn | hn | hn | hn | hn <;> rw [hn] at h <;> rw [hkind hn]
  · match body, h with
    | [c0, c1, r0, r1], h => cases h; exact ⟨rfl, rfl⟩
  · match body, h with
    | [c0, c1, r0, r1], h => cases h; exact ⟨rfl, rfl⟩
  · match body, h with
    | row :: first :: entries, h =>
      cases h
      simp only [List.length_cons] at hlength
      exact ⟨rfl, decide_eq_true (by omega)⟩
  · match body, h with
    | [ident, v1, v0], h => cases h; exact ⟨by simp [Instr.request], rfl⟩
  · match body, h with
    | [ident], h => cases h; exact ⟨rfl, rfl⟩
  · match body, h with
    | [], h => cases h; exact ⟨rfl, rfl⟩
  · match body, h with
    | [], h => cases h; exact ⟨rfl, rfl⟩
  · match body, h with
    | [], h => cases h; exact ⟨rfl, rfl⟩
  · match body, h with
    | [], h => cases h; exact ⟨rfl, rfl⟩
  · match body, h with
    | [arm], h => cases h; exact ⟨rfl, rfl⟩
  · match body, h with
    | [party], h => cases h; exact ⟨rfl, rfl⟩
  · match body, h with
    | [], h => cases h; exact ⟨rfl, rfl⟩
  · match body, h with
    | [arm], h => cases h; exact ⟨rfl, rfl⟩

/-- Check 7 of R165, from the command back to its kind and command section. -/
theorem commandOf_eq_some {p : Party} {kind : Byte} {tag : BitVec 4} {rep : Option Report} {body : List Byte} {c : Instr}
    (h : commandOf p kind tag rep body = some c) (hkind : kindAccepted p kind = true) (hrep : reportAllowed p rep = true)
    (hlength : body.length ≤ 60) :
    c.request = some ⟨p, tag, rep, kind, body⟩ ∧ c.wf = true := by
  unfold commandOf at h
  split at h
  · exact commonCommand_eq_some h hrep
  · rename_i hall
    cases p with
    | A => exact armCommand_eq_some (x := .A) h hrep
    | B => exact armCommand_eq_some (x := .B) h hrep
    | C =>
      obtain rfl : rep = none := by cases rep <;> simp_all [reportAllowed]
      have hcell : kind.toNat ∈ kindsOfCell := by
        rw [kindAccepted, Bool.eq_false_iff.mpr hall] at hkind
        simpa using hkind
      exact cellCommand_eq_some h hlength hcell

/-- What an accepted frame spells, with the bytes it was read from (R165). -/
theorem spelled_eq_some {p : Party} {f : Frame} {c : Instr} (h : f.spelled p = some c)
    (hkind : kindAccepted p f.kindByte = true) (hlength : f.body.length ≤ 60) :
    c.wf = true ∧ ∃ rep command, c.request = some ⟨p, f.tag, rep, f.kindByte, command⟩ ∧
      ((f.bytes.getD 1 0).getLsbD 7 = true ↔ rep.isSome = true) ∧
      Request.bodyBytes ⟨p, f.tag, rep, f.kindByte, command⟩ = f.body := by
  unfold Frame.spelled at h
  obtain ⟨⟨rep, command⟩, hsplit, hcommand⟩ := Option.bind_eq_some_iff.mp h
  obtain ⟨hrep, hflag, hbody⟩ := splitReport_eq_some hsplit
  have hshort : command.length ≤ 60 := by
    have := Request.bodyBytes_length ⟨p, f.tag, rep, f.kindByte, command⟩
    rw [hbody] at this
    dsimp only at this
    omega
  obtain ⟨hrequest, hwf⟩ := commandOf_eq_some hcommand hkind hrep hshort
  refine ⟨hwf, rep, command, hrequest, hflag, ?_⟩
  exact hbody _ _

/-- The top bit of a byte. -/
theorem getLsbD_seven_iff (b : Byte) : b.getLsbD 7 = true ↔ 128 ≤ b.toNat := by
  have hmsb : b.msb = decide (2 ^ (8 - 1) ≤ b.toNat) := BitVec.msb_eq_decide b
  rw [BitVec.msb_eq_getLsbD_last] at hmsb
  rw [hmsb, decide_eq_true_iff]
  norm_num

/-- Settles O18, by what each check lets pass. -/
theorem acceptedFrameSpellsItsRequest : Obligations.AcceptedFrameSpellsItsRequest := by
  unfold Obligations.AcceptedFrameSpellsItsRequest
  intro p f c h
  obtain ⟨hextra, hn, hlong, hxor, hkind, hspelled⟩ := decodeFrame_accepted_iff.mp h
  have hbody : f.body.length = f.bodyLength := by
    simp only [Frame.body, List.length_take, List.length_drop]; omega
  obtain ⟨hwf, rep, command, hrequest, hflag, hbytes⟩ := spelled_eq_some hspelled hkind (by omega)
  have hget {i : Nat} (hi : i < 4) : f.bytes[i]? = some (f.bytes.getD i 0) := by
    rw [List.getD_eq_getElem?_getD, List.getElem?_eq_getElem (by omega)]; rfl
  refine ⟨hwf, hextra, _, hrequest, rfl, hget (by omega), ⟨_, hget (by omega), ?_, ?_⟩, ⟨_, hget (by omega), ?_, hn⟩, ?_, ?_⟩
  · simp [Frame.tag, BitVec.extractLsb'_toNat]
  · rw [← getLsbD_seven_iff]; exact hflag
  · rw [hbytes, hbody]; rfl
  · rw [hbytes, hbody]; rfl
  · rw [hbytes, hbody]; exact hxor

/-- Settles O19: the check byte covers every byte, and the body length is the one that is left as it was. -/
theorem corruptedByteIsRefused : Obligations.CorruptedByteIsRefused := by
  unfold Obligations.CorruptedByteIsRefused
  intro p f c i b h hi hne hb
  obtain ⟨-, hn, hlong, hxor, -, -⟩ := decodeFrame_accepted_iff.mp h
  have hsame : Frame.bodyLength ⟨f.bytes.set i b, []⟩ = f.bodyLength := by
    simp [Frame.bodyLength, List.getD_eq_getElem?_getD, List.getElem?_set_ne hne]
  have hinside : i < f.bodyLength + 4 := hi
  have hchanged : xorAll ((f.bytes.set i b).take (f.bodyLength + 4)) ≠ 0 := by
    rw [List.take_set, ← hxor]
    refine xorAll_set_ne (by rw [List.length_take]; omega) ?_
    rw [List.getD_eq_getElem?_getD, List.getElem?_eq_getElem (by omega)] at hb
    simpa using hb
  rw [decodeFrame_of_bytes rfl (by simp only [List.length_set]; omega), hsame, if_neg (by simp only [List.length_set]; omega),
    if_pos hchanged]

end Sys2Proof

namespace Sys2Proof.Machine

open Sys2Proof

/-- Settles O16, by the frame checks in their order. -/
theorem frameChecksRefuse : Obligations.FrameChecksRefuse := by
  unfold Obligations.FrameChecksRefuse
  intro p f s hport
  have hrefusal {r : FrameRefusal} (h : decodeFrame p f = .refused r) := exec_frameCheckRefusal hport h
  refine ⟨fun h => hrefusal (decodeFrame_of_extra h), fun h => hrefusal (decodeFrame_of_short h), fun h => ?_,
    fun hclocked hxor => ?_, fun hchecked hkind => ?_, fun hchecked hkind hflag h => ?_, fun hchecked hkind h => ?_⟩
  · refine hrefusal (r := .badFrame) ?_
    by_cases hextra : f.extra = []
    · by_cases hlength : 4 ≤ f.bytes.length
      · exact (decodeFrame_of_bytes hextra hlength).trans (if_pos h)
      · exact decodeFrame_of_short (by omega)
    · exact decodeFrame_of_extra hextra
  · obtain ⟨hextra, hlength, hn, hlong⟩ := hclocked
    refine hrefusal (r := .badCheck) ?_
    rw [decodeFrame_of_bytes hextra hlength, if_neg (by simp only [Frame.bodyLength]; omega)]
    exact if_pos hxor
  all_goals
    obtain ⟨⟨hextra, hlength, hn, hlong⟩, hxor⟩ := hchecked
    have hfits : ¬(60 < f.bodyLength ∨ f.bytes.length < f.bodyLength + 4) := by simp only [Frame.bodyLength]; omega
    have hchecks := decodeFrame_of_bytes (p := p) hextra hlength
    rw [if_neg hfits, if_neg (fun hne : xorAll (f.bytes.take (f.bodyLength + 4)) ≠ 0 => hne hxor)] at hchecks
  · exact hrefusal (r := .badKind) (hchecks.trans (if_pos (show kindAccepted p f.kindByte = false from Bool.eq_false_iff.mpr hkind)))
  · have hlen : f.body.length = f.bodyLength := by
      simp only [Frame.body, List.length_take, List.length_drop]; omega
    have hnone : f.spelled p = none := by
      unfold Frame.spelled
      rw [splitReport_eq_none hflag (by rw [hlen]; exact h)]; rfl
    rw [if_neg (fun hk : kindAccepted p f.kindByte = false => Bool.false_ne_true (hk.symm.trans hkind)), hnone] at hchecks
    exact hrefusal (r := .badFrame) hchecks
  · have hnone : f.spelled p = none := by
      unfold Frame.spelled
      cases hsplit : splitReport p (f.bytes.getD 1 0) f.body with
      | none => rfl
      | some r => exact h r.1 r.2 hsplit
    rw [if_neg (fun hk : kindAccepted p f.kindByte = false => Bool.false_ne_true (hk.symm.trans hkind)), hnone] at hchecks
    exact hrefusal (r := .badFrame) hchecks

/-! ### Shifting out (R161, R164) -/

/-- One byte of the data is shifted out for each byte clocked, and bytes of value 0 after them (R161). -/
theorem shiftOut_bytes (data : List Byte) (f : Frame) :
    (shiftOut data f).bytes.length = f.bytes.length ∧
      ∀ i, i < f.bytes.length → (shiftOut data f).bytes[i]? = some (data.getD i 0) := by
  refine ⟨by simp [shiftOut]; omega, fun i hi => ?_⟩
  simp only [shiftOut, List.getElem?_take_of_lt hi, List.getD_eq_getElem?_getD]
  rw [List.getElem?_append]
  split_ifs with hd
  · rw [List.getElem?_eq_getElem hd]; rfl
  · rw [List.getElem?_replicate_of_lt (by omega), List.getElem?_eq_none (by omega)]; rfl

/-- The first bits of the byte that was not finished (log 26). -/
theorem shiftOut_extra (data : List Byte) (f : Frame) :
    (shiftOut data f).extra.length = f.extra.length ∧
      ∀ j, j < f.extra.length →
        (shiftOut data f).extra[j]? = some ((data.getD f.bytes.length 0).getLsbD (7 - j)) := by
  have hall : (data ++ List.replicate (f.bytes.length + 1) 0).getD f.bytes.length 0 = data.getD f.bytes.length 0 := by
    simp only [List.getD_eq_getElem?_getD, List.getElem?_append]
    split_ifs with hd
    · rfl
    · rw [List.getElem?_replicate_of_lt (by omega), List.getElem?_eq_none (by omega)]; rfl
  refine ⟨by simp [shiftOut, topBits], fun j hj => ?_⟩
  simp only [shiftOut, topBits, hall, List.getElem?_map, List.getElem?_range hj, Option.map_some]

/-- Settles O14, by the cases of the end of an exchange. -/
theorem exchangeEndTakesTheRequest : Obligations.ExchangeEndTakesTheRequest := by
  unfold Obligations.ExchangeEndTakesTheRequest
  intro p f s hidle
  have hbusy : (s.port p).processing.isSome = false := by simp [hidle]
  refine ⟨fun hheld => ?_, fun hheld => ?_⟩
  · obtain ⟨hlength, hbytes⟩ := shiftOut_bytes (s.port p).reply.bytes f
    obtain ⟨hbits, hextra⟩ := shiftOut_extra (s.port p).reply.bytes f
    by_cases hempty : f.bytes = [] ∧ f.extra = []
    · refine ⟨s.shifts p (shiftOut (s.port p).reply.bytes f), by simp [exec, execExchangeEnd, hheld, hbusy, hempty], ?_⟩
      rw [State.port_shifts, if_pos hempty]
      exact ⟨rfl, fun h => absurd hidle h, fun _ => rfl, hidle, hlength, hbytes, hbits, hextra⟩
    · refine ⟨(s.shifts p (shiftOut (s.port p).reply.bytes f)).setPort p
        { (s.shifts p (shiftOut (s.port p).reply.bytes f)).port p with processing := some f, reported := false },
        by simp [exec, execExchangeEnd, hheld, hbusy, hempty], ?_⟩
      rw [State.port_setPort, State.port_shifts, if_neg hempty]
      exact ⟨by cases p <;> rfl, fun _ => rfl, fun h => absurd h (Option.some_ne_none f), rfl, hlength, hbytes, hbits, hextra⟩
  · refine ⟨{ s.shifts p (shiftOut (s.heldBytes (f.bytes.length + 1)) f) with
        freeCount := s.freeCount + (f.bytes.length + 1) }, by simp [exec, execExchangeEnd, hheld], ?_⟩
    obtain ⟨hlength, hbytes⟩ := shiftOut_bytes (s.heldBytes (f.bytes.length + 1)) f
    have hport : ({ s.shifts p (shiftOut (s.heldBytes (f.bytes.length + 1)) f) with
        freeCount := s.freeCount + (f.bytes.length + 1) } : State).port p =
        { s.port p with shifted := shiftOut (s.heldBytes (f.bytes.length + 1)) f } := by cases p <;> rfl
    rw [hport]
    refine ⟨rfl, hlength, fun i hi => ?_⟩
    rw [hbytes i hi]
    simp [State.heldBytes, List.getD_eq_getElem?_getD, List.getElem?_range (show i < f.bytes.length + 1 by omega)]

/-- Settles O15, by the definition of an overrun. -/
theorem overrunAnswersNotReady : Obligations.OverrunAnswersNotReady := by
  unfold Obligations.OverrunAnswersNotReady
  intro p f g s hport
  obtain ⟨hlength, hbytes⟩ := shiftOut_bytes (notReady g) f
  have htag : ((0 : BitVec 4) ++ g.tag : Byte) = BitVec.ofNat 8 g.tag.toNat := by
    refine BitVec.eq_of_toNat_eq ?_
    rw [BitVec.toNat_append, BitVec.toNat_ofNat, Nat.mod_eq_of_lt (by have := g.tag.isLt; omega)]
    simp
  have hnotReady : notReady g = ([1, 5, BitVec.ofNat 8 g.tag.toNat, g.kindByte,
      1 ^^^ 5 ^^^ BitVec.ofNat 8 g.tag.toNat ^^^ g.kindByte] : List Byte) := by
    simp only [notReady, htag, framedReply, xorAll, byte, List.length_cons, List.length_nil, List.cons_append, List.nil_append,
      BitVec.xor_assoc]
    rw [show g.kindByte ^^^ 0 = g.kindByte from BitVec.xor_zero]
    rfl
  refine ⟨(s.shifts p (shiftOut (notReady g) f)).raise p .portFault, by simp only [exec, execOverrun, hport], ?_, ?_, ?_⟩
  · cases p <;> rfl
  · simpa [Port.raise] using hlength
  · intro tag i hi
    have hshifted : (((s.shifts p (shiftOut (notReady g) f)).raise p .portFault).port p).shifted =
        shiftOut (notReady g) f := by simp [Port.raise]
    rw [hshifted, hbytes i hi, hnotReady]

end Sys2Proof.Machine
end

section
/-! SUPPORT. The report of a request and the requests to a Guard Controller that change no claim. -/

namespace Sys2Proof.Machine

open Sys2Proof

/-! ### The report of a request (R43 to R45) -/

theorem Probe.guarded_eq_tool_iff {q : Probe} : q.guarded = some .tool ↔ q.kind = 1 := by
  have hcode : q.kind = 1 ↔ q.kind.toNat = 1 := ⟨fun h => by rw [h]; rfl, fun h => BitVec.eq_of_toNat_eq h⟩
  rw [hcode]
  unfold Probe.guarded
  split <;> simp_all

theorem Probe.guarded_eq_elbow_iff {q : Probe} : q.guarded = some .elbow ↔ q.kind = 2 := by
  have hcode : q.kind = 2 ↔ q.kind.toNat = 2 := ⟨fun h => by rw [h]; rfl, fun h => BitVec.eq_of_toNat_eq h⟩
  rw [hcode]
  unfold Probe.guarded
  split <;> simp_all

/-- The tests of R44 on a report with a probe record. -/
theorem reportOutcome_cons {rep : Report} {q : Probe} {more : List Probe} (h : rep.probes = q :: more) (radius : Nat)
    (last : Option (BitVec 4)) :
    reportOutcome rep radius last =
      if q.guarded ≠ some .tool then .refused .firstNotTool
      else if 0 < radius ∧ (more.head?.bind Probe.guarded) ≠ some .elbow then .refused .elbowMissing
      else if last = some rep.count then .repeated
      else .fresh := by
  unfold reportOutcome
  rw [h]

theorem reportOutcome_nil {rep : Report} (h : rep.probes = []) (radius : Nat) (last : Option (BitVec 4)) :
    reportOutcome rep radius last = .emptyReport := by
  unfold reportOutcome
  rw [h]

/-- What a report does at an arm's Report Monitor, by the outcome of its tests (R44, R45). -/
def State.onOutcome (s : State) (x : Arm) (rep : Report) : ReportOutcome → State
  | .emptyReport => s
  | .refused r => s.raise x.party (.reportRefused r rep.count)
  | .repeated => s
  | .fresh => s.freshReport x rep

theorem State.takeReport_of_outcome {s : State} {x : Arm} {rep : Report} {o : ReportOutcome}
    (h : reportOutcome rep (s.params.arm x).elbowRadius (s.arm x).monitor.lastCount = o) :
    s.takeReport x.party (some rep) = s.onOutcome x rep o := by
  rw [State.takeReport_arm, State.armReport, h]
  cases o <;> rfl

/-- A fresh report passes the tests of R44. -/
theorem probes_of_fresh {rep : Report} {radius : Nat} {last : Option (BitVec 4)}
    (h : reportOutcome rep radius last = .fresh) :
    ∃ q more, rep.probes = q :: more ∧ q.guarded = some .tool ∧
      (0 < radius → more.head?.bind Probe.guarded = some .elbow) := by
  cases hp : rep.probes with
  | nil => rw [reportOutcome_nil hp] at h; cases h
  | cons q more =>
    rw [reportOutcome_cons hp] at h
    split_ifs at h with htool helbow
    exact ⟨q, more, rfl, not_not.mp htool, fun hr => by_contra fun hne => helbow ⟨hr, hne⟩⟩

/-- Settles O22, by the tests of R44 in their order. -/
theorem nopTestsItsReport : Obligations.NopTestsItsReport := by
  unfold Obligations.NopTestsItsReport
  refine ⟨fun p tag s h => ?_, fun x tag rep s h => exec_nop x.party tag (some rep) h,
    fun p rep s => ⟨State.afterReport_of_not rep, State.afterReport_of_reported rep⟩, fun p s => s.takeReport_none p,
    fun rep s => s.takeReport_C rep, fun x rep s => ⟨fun hnil => ?_, fun q more hcons => ⟨fun hkind => ?_, fun hkind => ?_⟩⟩⟩
  · simpa using exec_nop p tag none h
  · exact State.takeReport_of_outcome (reportOutcome_nil hnil _ _)
  · refine State.takeReport_of_outcome (o := .refused .firstNotTool) ?_
    rw [reportOutcome_cons hcons, if_pos (fun h => hkind (Probe.guarded_eq_tool_iff.mp h))]
  · have htool : ¬q.guarded ≠ some .tool := not_not.mpr (Probe.guarded_eq_tool_iff.mpr hkind)
    have hsecond : rep.probes[1]? = more.head? := by rw [hcons, List.getElem?_cons_succ, List.head?_eq_getElem?]
    have helbow : (more.head?.bind Probe.guarded) = some .elbow ↔ ∃ q, rep.probes[1]? = some q ∧ q.kind = 2 := by
      rw [hsecond, Option.bind_eq_some_iff]
      exact exists_congr fun b => and_congr_right fun _ => Probe.guarded_eq_elbow_iff
    refine ⟨fun hradius hmissing => ?_, fun hok => ?_⟩
    · refine State.takeReport_of_outcome (o := .refused .elbowMissing) ?_
      rw [reportOutcome_cons hcons, if_neg htool, if_pos ⟨hradius, fun h => hmissing (helbow.mp h)⟩]
    · have hpass : ¬(0 < (s.params.arm x).elbowRadius ∧ (more.head?.bind Probe.guarded) ≠ some .elbow) :=
        fun h => h.2 (helbow.mpr (hok h.1))
      refine ⟨fun hlast => State.takeReport_of_outcome (o := .repeated) ?_,
        fun hlast => State.takeReport_of_outcome (o := .fresh) ?_⟩
      · rw [reportOutcome_cons hcons, if_neg htool, if_neg hpass, if_pos hlast]
      · rw [reportOutcome_cons hcons, if_neg htool, if_neg hpass, if_neg hlast]

/-! ### JOIN, LEAVE and CLEAR_TRIP (R120, R124, R125) -/

/-- Settles O35, by the conditions of R120. -/
theorem joinMakesAnArmArming : Obligations.JoinMakesAnArmArming := by
  unfold Obligations.JoinMakesAnArmArming
  intro x tag rep epoch s htaken hmode s1
  have hguarding : ¬s1.mode ≠ .guarding := by simpa [s1] using hmode
  rw [exec_join x tag rep epoch htaken]
  refine ⟨fun hx => ?_, fun hx hepoch => ?_, fun hx hepoch => ?_⟩
  · rw [joinRequest, if_neg hguarding, if_pos hx]
  · rw [joinRequest, if_neg hguarding, if_neg (not_not.mpr hx), if_pos hepoch]; rfl
  · rw [joinRequest, if_neg hguarding, if_neg (not_not.mpr hx), if_neg (not_not.mpr hepoch)]; rfl

/-- The lowest slot that is not EMPTY, where an ordinary one is (R124). -/
theorem State.firstHolding_of_slot {s : State} {x : Arm} {k : SlotNo} (h : s.slot x.party k ≠ .empty)
    (hbelow : ∀ j < k, s.slot x.party j = .empty) : s.firstHolding x = some k.val := by
  have hstate (j : SlotNo) : ((s.slot x.party j).state != .empty) = true ↔ s.slot x.party j ≠ .empty := by
    cases s.slot x.party j <;> simp [Claim.state]
  have hfind : (slotNos.find? fun j => (s.slot x.party j).state != .empty) = some k := by
    have hbelow' : ∀ j < k, ((s.slot x.party j).state != .empty) = false := fun j hj => by
      rw [hbelow j hj]; rfl
    have hk := (hstate k).mpr h
    match k with
    | 0 => simp [slotNos, hk]
    | 1 => simp [slotNos, List.find?, hk, hbelow' 0 (by decide)]
    | 2 => simp [slotNos, List.find?, hk, hbelow' 0 (by decide), hbelow' 1 (by decide)]
    | 3 => simp [slotNos, List.find?, hk, hbelow' 0 (by decide), hbelow' 1 (by decide), hbelow' 2 (by decide)]
  unfold State.firstHolding
  rw [hfind]

/-- With every ordinary slot EMPTY it is slot 4 or none (R124). -/
theorem State.firstHolding_of_empty {s : State} {x : Arm} (h : ∀ k, s.slot x.party k = .empty) :
    s.firstHolding x = if s.tripTiles x = [] then none else some 4 := by
  have hfind : (slotNos.find? fun j => (s.slot x.party j).state != .empty) = none :=
    List.find?_eq_none.mpr fun j _ => by simp [h j, Claim.state]
  unfold State.firstHolding
  rw [hfind]

/-- LEAVE of an ARMING or LIVE arm turns on its slots (R124). -/
theorem leaveRequest_of_joined {s : State} {x : Arm} (h : s.guardState x = .arming ∨ s.guardState x = .live) :
    leaveRequest x s = match s.firstHolding x with
      | some k => (s, ⟨.holding, false, .holdingSlot k⟩)
      | none => (s.goOffline x, ⟨.done, false, .left (s.guardState x)⟩) := by
  unfold leaveRequest
  obtain h | h := h <;> rw [h] <;> rfl

/-- Settles O36, by the guard state and the slots of the arm. -/
theorem leaveNeedsEmptySlots : Obligations.LeaveNeedsEmptySlots := by
  unfold Obligations.LeaveNeedsEmptySlots
  intro x tag rep s htaken s1 answers
  have hexec {r : State × Answer} (h : leaveRequest x s1 = r) : answers r.1 r.2 :=
    (exec_leave x tag rep htaken).trans (by rw [show leaveRequest x (s.afterReport x.party rep) = r from h])
  refine ⟨fun hx => hexec (r := (s1, ⟨.done, false, .left .offline⟩)) (by rw [leaveRequest, hx]),
    fun hx => hexec (r := (s1, ⟨.armTripped, false, .empty⟩)) (by rw [leaveRequest, hx]; rfl), fun hx => ?_⟩
  have hjoined := leaveRequest_of_joined hx
  refine ⟨fun k hk hbelow => ?_, fun hempty htrip => ?_, fun hempty htrip => ?_⟩
  · rw [State.firstHolding_of_slot hk hbelow] at hjoined
    exact hexec hjoined
  · rw [State.firstHolding_of_empty hempty, if_neg htrip] at hjoined
    exact hexec hjoined
  · rw [State.firstHolding_of_empty hempty, if_pos htrip] at hjoined
    exact hexec hjoined

/-- Settles O37, by the conditions of R125. -/
theorem clearTripRearms : Obligations.ClearTripRearms := by
  unfold Obligations.ClearTripRearms
  intro x tag rep s htaken hmode s1 g
  have hguarding : ¬s1.mode ≠ .guarding := by simpa [s1] using hmode
  rw [exec_clearTrip x tag rep htaken]
  refine ⟨fun hx => ?_, fun hx htrip => ?_, fun r hx htrip hr => ?_⟩
  · rw [clearTripRequest, if_neg hguarding, if_pos hx]; rfl
  · rw [clearTripRequest, if_neg hguarding, if_neg (not_not.mpr hx), if_pos htrip]
  · rw [clearTripRequest, if_neg hguarding, if_neg (not_not.mpr hx), if_neg (not_not.mpr htrip)]
    have hg : ((s.afterReport x.party rep).arm x).guard.trip = some r := hr
    simp only [Guard.mapTrip, hg, Option.map_some]
    rfl

end Sys2Proof.Machine
end

section
/-! SUPPORT. Which notices each operation raises at which port, and what the steps of a trip do to each part of the state. -/

namespace Sys2Proof.Machine

open Sys2Proof

/-! ### Raised notices of a kind -/

/-- Between two states every port changes by raised notices alone, each of which satisfies `P` at its port. -/
def State.Raises (P : Party → Notice → Prop) (s t : State) : Prop :=
  ∀ p, Relation.ReflTransGen (fun q r : Port => ∃ n, P p n ∧ r = q.raise n) (s.port p) (t.port p)

namespace State.Raises

variable {P Q : Party → Notice → Prop} {s t u : State}

@[refl] theorem refl (s : State) : s.Raises P s := fun _ => .refl

@[trans] theorem trans (h : s.Raises P t) (hu : t.Raises P u) : s.Raises P u := fun p => (h p).trans (hu p)

theorem mono (h : s.Raises P t) (hPQ : ∀ p n, P p n → Q p n) : s.Raises Q t :=
  fun p => Relation.ReflTransGen.mono (fun _ _ ⟨n, hn, hr⟩ => ⟨n, hPQ p n hn, hr⟩) _ _ (h p)

theorem of_port_eq (h : s.Raises P t) (hport : ∀ p, u.port p = t.port p) : s.Raises P u :=
  fun p => hport p ▸ h p

theorem raise (h : s.Raises P t) {p : Party} {n : Notice} (hn : P p n) : s.Raises P (t.raise p n) := by
  intro r
  by_cases hr : r = p
  · subst hr
    exact (h r).tail ⟨n, hn, State.port_raise t r n⟩
  · rw [State.port_raise_of_ne t n hr]
    exact h r

/-- A notice of the set was there before or has been raised. -/
theorem mem (h : s.Raises P t) {p : Party} {n : Notice} (hn : n ∈ (t.port p).attention) :
    n ∈ (s.port p).attention ∨ P p n := by
  have hraises := h p
  generalize t.port p = q at hraises hn
  induction hraises with
  | refl => exact .inl hn
  | tail _ hraise ih =>
    obtain ⟨m, hm, rfl⟩ := hraise
    obtain rfl | hold := mem_of_mem_insertNotice hn
    · exact .inr hm
    · exact ih hold

/-- A notice stays where no notice of its kind is raised. -/
theorem mem_of_mem (h : s.Raises P t) {p : Party} {n : Notice} (hn : n ∈ (s.port p).attention)
    (hcode : ∀ m, P p m → m.code ≠ n.code) : n ∈ (t.port p).attention := by
  have hraises := h p
  generalize t.port p = q at hraises ⊢
  induction hraises with
  | refl => exact hn
  | tail _ hraise ih =>
    obtain ⟨m, hm, rfl⟩ := hraise
    exact mem_insertNotice_of_ne ih (hcode m hm).symm

/-- A port at which nothing is raised is as it was. -/
theorem port_eq (h : s.Raises P t) {p : Party} (hp : ∀ n, ¬P p n) : t.port p = s.port p := by
  have hraises := h p
  generalize t.port p = q at hraises ⊢
  induction hraises with
  | refl => rfl
  | tail _ hraise ih =>
    obtain ⟨m, hm, -⟩ := hraise
    exact absurd hm (hp m)

/-- The attention line that is on stays on. -/
theorem line (h : s.Raises P t) {p : Party} (hline : (s.port p).line = true) : (t.port p).line = true := by
  have hraises := h p
  generalize t.port p = q at hraises ⊢
  induction hraises with
  | refl => exact hline
  | tail _ hraise ih =>
    obtain ⟨m, -, rfl⟩ := hraise
    rfl

theorem onlyRaises (h : s.Raises P t) : s.OnlyRaises t :=
  fun p => Relation.ReflTransGen.mono (fun _ _ ⟨n, _, hr⟩ => ⟨n, hr⟩) _ _ (h p)

end State.Raises

/-- A notice that a grant scan may raise: GRANTED, and BLOCK_DONE at the Cell Port (R16, R89). -/
def ScanNotice (p : Party) (n : Notice) : Prop := (∃ k, n = .granted k) ∨ p = .C ∧ n = .blockDone

theorem ScanNotice.code {p : Party} {n : Notice} (h : ScanNotice p n) : n.code = 1 ∨ n.code = 16 := by
  obtain ⟨k, rfl⟩ | ⟨-, rfl⟩ := h
  · exact .inl rfl
  · exact .inr rfl

namespace State.Raises

variable {s t : State}

theorem lowerClosing (h : s.Raises ScanNotice t) (n : Nat) : s.Raises ScanNotice (t.lowerClosing n) := by
  have hcount : s.Raises ScanNotice { t with closing := t.closing - n } := h.of_port_eq fun p => by cases p <;> rfl
  unfold State.lowerClosing
  split
  · exact hcount.raise (.inr ⟨rfl, rfl⟩)
  · exact hcount

theorem dropHolds (h : s.Raises ScanNotice t) (f : Tile → Bool) : s.Raises ScanNotice (t.dropHolds f) :=
  lowerClosing (h.of_port_eq fun p => by cases p <;> rfl) _

theorem releaseSlot (h : s.Raises ScanNotice t) (p : Party) (k : SlotNo) : s.Raises ScanNotice (t.releaseSlot p k).1 := by
  unfold State.releaseSlot
  split
  · exact h
  · rename_i r _
    exact (h.dropHolds r.contains).of_port_eq fun q => by simp

theorem grant (h : s.Raises ScanNotice t) (n : ClaimName) (r : Rect) (l : Option SlotNo) :
    s.Raises ScanNotice (t.grant n r l).1 := by
  have hheld : s.Raises ScanNotice (((t.addHolds n.party r.contains).dequeue n).setSlot n.party n.slot (.held r l)) :=
    h.of_port_eq fun p => by simp
  unfold State.grant
  split
  · exact hheld
  · split
    · exact hheld.releaseSlot .C _
    · exact hheld.of_port_eq fun p => by simp
    · exact hheld.of_port_eq fun p => by simp

theorem scanEntry {acc : State × Bool} (h : s.Raises ScanNotice acc.1) (n : ClaimName) :
    s.Raises ScanNotice (Machine.scanEntry acc n).1 := by
  obtain hleft | ⟨w, -, -, hgranted⟩ := scanEntry_cases acc n
  · rw [hleft]; exact h
  · rw [hgranted]; exact (h.grant n w.rect w.link).raise (.inl ⟨n.slot, rfl⟩)

theorem scanPasses (n : Nat) (h : s.Raises ScanNotice t) : s.Raises ScanNotice (Machine.scanPasses n t) := by
  have hpass {u : State} (hu : s.Raises ScanNotice u) : s.Raises ScanNotice u.scanPass.1 :=
    List.foldlRecOn (motive := fun acc : State × Bool => s.Raises ScanNotice acc.1) u.queue Machine.scanEntry hu
      fun _ hacc n _ => scanEntry hacc n
  induction n generalizing t with
  | zero => exact h
  | succ n ih =>
    unfold Machine.scanPasses
    split
    · exact ih (hpass h)
    · exact hpass h

theorem grantScan (h : s.Raises ScanNotice t) : s.Raises ScanNotice t.grantScan := scanPasses _ h

end State.Raises

/-- A notice of another kind than GRANTED and BLOCK_DONE is in a set after a grant scan where it was before. -/
theorem State.mem_attention_grantScan {s : State} {p : Party} {n : Notice} (hcode : n.code ≠ 1 ∧ n.code ≠ 16) :
    n ∈ (s.grantScan.port p).attention ↔ n ∈ (s.port p).attention := by
  have hraises := (State.Raises.refl (P := ScanNotice) s).grantScan
  refine ⟨fun h => (hraises.mem h).resolve_right fun hn => ?_, fun h => hraises.mem_of_mem h fun m hm => ?_⟩
  · exact hn.code.elim hcode.1 hcode.2
  · obtain h1 | h16 := hm.code
    · rw [h1]; exact hcode.1.symm
    · rw [h16]; exact hcode.2.symm

/-- A notice of another kind than GRANTED, SHIFT_DONE and BLOCK_DONE is in a set after the drain where it was before. -/
theorem State.mem_attention_drain {s : State} {x : Arm} {p : Party} {n : Notice}
    (hcode : n.code ≠ 1 ∧ n.code ≠ 6 ∧ n.code ≠ 16) (h : n ∈ (s.port p).attention) :
    n ∈ ((s.drain x).port p).attention := by
  obtain hkept | ⟨k, r, target, q, -, -, -, hdrained⟩ := s.drain_cases x
  · rw [hkept]; exact h
  · rw [hdrained, State.mem_attention_grantScan ⟨hcode.1, hcode.2.2⟩]
    have hreleased : n ∈ (((s.releaseSlot x.party k).1).port p).attention :=
      ((State.Raises.refl (P := ScanNotice) s).releaseSlot x.party k).mem_of_mem h fun m hm => by
        obtain h1 | h16 := hm.code
        · rw [h1]; exact hcode.1.symm
        · rw [h16]; exact hcode.2.2.symm
    by_cases hp : p = x.party
    · subst hp
      rw [State.port_raise]
      exact mem_insertNotice_of_ne hreleased hcode.2.1
    · rw [State.port_raise_of_ne _ _ hp]; exact hreleased

/-! ### First tiles (00_scope.md section 5.2) -/

theorem Tile.index_le_iff {t u : Tile} : t.index ≤ u.index ↔ t.row < u.row ∨ t.row = u.row ∧ t.col ≤ u.col := by
  have ht := t.col.isLt
  have hu := u.col.isLt
  unfold Tile.index
  rw [Fin.lt_def, Fin.ext_iff, Fin.le_def]
  omega

theorem firstTile_eq_some_iff {f : Tile → Bool} {t : Tile} : firstTile f = some t ↔ IsFirst (fun z => f z = true) t := by
  constructor
  · exact fun h => ⟨firstTile_some h, fun u hu => Tile.index_le_iff.mp (firstTile_first h hu)⟩
  · rintro ⟨ht, hfirst⟩
    obtain ⟨u, hu⟩ := Option.isSome_iff_exists.mp (firstTile_isSome.mpr ⟨t, ht⟩)
    have hle := Tile.index_le_iff.mpr (hfirst u (firstTile_some hu))
    have hge := firstTile_first hu ht
    rw [hu, Tile.index_injective (le_antisymm hge hle)]

theorem isFirst_congr {f g : Tile → Prop} (h : ∀ z, f z ↔ g z) (t : Tile) : IsFirst f t ↔ IsFirst g t := by
  simp only [IsFirst, h]

theorem firstTile_eq_none_iff {f : Tile → Bool} : firstTile f = none ↔ ¬∃ t, f t = true := by
  simp [firstTile_eq_none]

/-! ### The trip record (R141, R142) -/

theorem Evaluation.mem_envelopes {e : Evaluation} {v : Envelope} : v ∈ e.envelopes ↔ e.Holds v := by
  have helbow : (e.elbow.bind fun b => b.envelope) = some v ↔ ∃ b, e.elbow = some b ∧ b.envelope = some v :=
    Option.bind_eq_some_iff
  simp only [Evaluation.envelopes, List.mem_append, Option.mem_toList, helbow, Evaluation.Holds]

/-- The rectangle of a record bounds the envelopes that the record holds. -/
theorem Evaluation.bounds_rect (e : Evaluation) : e.Bounds e.rect := by
  simp only [Evaluation.Bounds, ← Evaluation.mem_envelopes, Evaluation.rect, Evaluation.envelopes]
  cases e.tool.envelope with
  | none =>
    cases e.elbow.bind fun b => b.envelope with
    | none => simp
    | some w => simp [Envelope.rect]
  | some v =>
    cases e.elbow.bind fun b => b.envelope with
    | none => simp [Envelope.rect]
    | some w =>
      simp only [Option.toList_some, List.singleton_append, List.foldl_cons, List.foldl_nil, reduceCtorEq, false_iff,
        Option.some.injEq, forall_eq', List.mem_cons, List.not_mem_nil, or_false, exists_eq_or_imp, exists_eq_left,
        forall_eq_or_imp, forall_eq, Envelope.rect, EnvelopeRect.join]
      refine ⟨fun h => h.1, ⟨?_, ?_⟩, ?_, ?_, ?_, ?_⟩ <;> omega

theorem Evaluation.fastest_maxSpeed (e : Evaluation) : e.Fastest e.maxSpeed := by
  unfold Evaluation.maxSpeed
  cases hb : e.elbow with
  | none => simp [Evaluation.Fastest, hb]
  | some b =>
    have hmax := max_choice e.tool.speed b.speed
    simpa [Evaluation.Fastest, hb] using hmax

/-- A trip record as step 1 writes it takes its measures from the arm's evaluation record and missed count (R142). -/
theorem State.tripRecord_measures (s : State) (x : Arm) (c : Cause) (own : Bool) (tile : Option Tile) :
    (s.tripRecord x c own tile).Measures (s.arm x).evaluation (s.arm x).monitor.missed := by
  refine ⟨rfl, rfl, fun hnone => by simp [State.tripRecord, hnone], fun e he => ?_⟩
  have hspeed : (s.tripRecord x c own tile).speed = some ((s.tripRecord x c own tile).kind.elim e.maxSpeed e.speedOf) := by
    simp only [State.tripRecord, he, Option.map_some]
    generalize (if own = true then _ else none : Option ProbeKind) = k
    cases k <;> rfl
  have hrect : (s.tripRecord x c own tile).rect = e.rect := by simp [State.tripRecord, he]
  refine ⟨hrect ▸ e.bounds_rect, fun hkind => ?_, fun b hkind hb => ?_, fun hkind => ⟨e.maxSpeed, ?_, e.fastest_maxSpeed⟩⟩
  · rw [hspeed, hkind, Option.elim_some, Evaluation.speedOf]
  · simp [hspeed, hkind, Evaluation.speedOf, hb]
  · rw [hspeed, hkind, Option.elim_none]

/-! ### Steps 1 to 3 of a trip (R133, R135) -/

/-- The tiles that a trip claim of an arm takes (R135). -/
def State.tripTakes (s : State) (x : Arm) (t : Tile) : Bool := s.touches x t && (s.tile t).takenBy x

/-- A tile under the trip envelope of an arm that another party owns (R135). -/
def State.tripContested (s : State) (x : Arm) : Bool := allTiles.any fun t => s.touches x t && (s.tile t).contestedFor x

theorem TileRecord.takenBy_iff {r : TileRecord} {x : Arm} :
    r.takenBy x = true ↔ r.owner = some x.party ∨ r.owner = none ∧ r.service = .opened := by
  unfold TileRecord.takenBy
  cases r.owner <;> simp

theorem State.tripTakes_iff {s : State} {x : Arm} {t : Tile} :
    s.tripTakes x t = true ↔ s.touches x t = true ∧
      ((s.tile t).owner = some x.party ∨ (s.tile t).owner = none ∧ (s.tile t).service = .opened) := by
  rw [State.tripTakes, Bool.and_eq_true, TileRecord.takenBy_iff]

theorem State.tripContested_iff {s : State} {x : Arm} :
    s.tripContested x = true ↔ ∃ t p, s.touches x t = true ∧ (s.tile t).owner = some p ∧ p ≠ x.party := by
  have hcontested (r : TileRecord) : r.contestedFor x = true ↔ ∃ p, r.owner = some p ∧ p ≠ x.party := by
    unfold TileRecord.contestedFor
    cases r.owner <;> simp
  simp only [State.tripContested, List.any_eq_true, mem_allTiles, true_and, Bool.and_eq_true, hcontested]
  exact exists_congr fun t => ⟨fun ⟨ht, p, hp⟩ => ⟨p, ht, hp⟩, fun ⟨p, ht, hp⟩ => ⟨ht, p, hp⟩⟩

theorem TileRecord.addHold_eq (r : TileRecord) (p : Party) : r.addHold p = { r with owner := some p, hold := r.hold + 1 } :=
  rfl

theorem tile_buildTripClaim (s : State) (x : Arm) (t : Tile) :
    (s.buildTripClaim x).tile t =
      if s.tripTakes x t = true then { s.tile t with owner := some x.party, hold := (s.tile t).hold + 1 } else s.tile t :=
  State.tile_buildTripClaim s x t

theorem tripTiles_buildTripClaim (s : State) (x : Arm) :
    (s.buildTripClaim x).tripTiles x = allTiles.filter (s.tripTakes x) := by
  simp [State.buildTripClaim]
  rfl

theorem tripTiles_buildTripClaim_of_ne (s : State) {x y : Arm} (h : y ≠ x) :
    (s.buildTripClaim x).tripTiles y = s.tripTiles y := by
  simp [State.buildTripClaim, State.tripTiles_setTripTiles_of_ne _ _ h]

@[simp] theorem slot_buildTripClaim (s : State) (x : Arm) (p : Party) (k : SlotNo) :
    (s.buildTripClaim x).slot p k = s.slot p k := by
  simp [State.buildTripClaim]

theorem arm_buildTripClaim (s : State) (x : Arm) :
    (s.buildTripClaim x).arm x = { s.arm x with guard := (s.arm x).guard.mapTrip fun r =>
      { r with contested := s.tripContested x, tileCount := countTiles (s.tripTakes x) } } := by
  simp only [State.buildTripClaim, State.arm_setGuard, State.arm_setTripTiles, arm_addHolds]
  rfl

theorem length_filter_allTiles (f : Tile → Bool) : (allTiles.filter f).length = countTiles f :=
  (List.countP_eq_length_filter ..).symm

/-- Settles O33, by what step 3 does to the tiles, to slot 4 and to the record. -/
theorem tripClaimTakesTheCover : Obligations.TripClaimTakesTheCover := by
  unfold Obligations.TripClaimTakesTheCover
  intro s x u taken
  have htaken (t : Tile) : s.tripTakes x t = true ↔ taken t := State.tripTakes_iff
  have htiles : u.tripTiles x = allTiles.filter (s.tripTakes x) := tripTiles_buildTripClaim s x
  have harm : u.arm x = _ := arm_buildTripClaim s x
  refine ⟨fun t ht => ?_, fun t ht => ?_, fun t => ?_, ?_, tripTiles_buildTripClaim_of_ne s (Arm.other_ne x),
    slot_buildTripClaim s x, fun r hr => ⟨s.tripContested x, ?_, State.tripContested_iff⟩, ?_,
    arm_buildTripClaim_of_ne s (Arm.other_ne x), ?_⟩
  · exact (tile_buildTripClaim s x t).trans (if_pos ((htaken t).mpr ht))
  · exact (tile_buildTripClaim s x t).trans (if_neg fun h => ht ((htaken t).mp h))
  · rw [htiles, List.mem_filter, htaken]; simp
  · rw [htiles]; exact allTiles_nodup.filter _
  · rw [harm, htiles, length_filter_allTiles]
    simp [Guard.mapTrip, hr]
  · cases x <;> rfl
  · rw [harm]; rfl

end Sys2Proof.Machine
end

section
/-! SUPPORT. What an evaluation hands to the Guard Controller and to the Claim Arbiter, and the statements on fresh reports,
expiries and OVERSPEED. -/

namespace Sys2Proof.Machine

open Sys2Proof

/-! ### Setters of one arm -/

@[simp] theorem State.setArm_setArm (s : State) (x : Arm) (u v : ArmUnit) : (s.setArm x u).setArm x v = s.setArm x v := by
  cases x <;> rfl

@[simp] theorem State.setArm_arm (s : State) (x : Arm) : s.setArm x (s.arm x) = s := by cases x <;> rfl

@[simp] theorem State.guardState_setArm (s : State) (x : Arm) (u : ArmUnit) : (s.setArm x u).guardState x = u.guard.state := by
  simp [State.guardState]

@[simp] theorem State.guardState_setEvaluation (s : State) (x y : Arm) (e : Option Evaluation) :
    (s.setEvaluation x e).guardState y = s.guardState y := by
  simp [State.guardState]

/-! ### The evaluation (R35 to R39) -/

section
variable {s t : State} (hparams : t.params = s.params) (htiles : t.tile = s.tile)
include hparams htiles

/-- A probe's result reads the parameters and the tiles. -/
theorem State.probeResult_congr (x : Arm) (e : Envelope) (v : Nat) : t.probeResult x e v = s.probeResult x e v := by
  have hclass (c : TileClass) : t.firstOfClass x e c = s.firstOfClass x e c := by
    simp only [State.firstOfClass, htiles]
  have hzone : t.lowestZone e = s.lowestZone e := by simp only [State.lowestZone, hparams, htiles]
  simp only [State.probeResult, hclass, hzone, hparams, htiles]

theorem State.probeEntry_congr (x : Arm) (r m : Nat) (q : Probe) : t.probeEntry x r m q = s.probeEntry x r m q := by
  simp only [State.probeEntry, State.probeResult_congr hparams htiles, hparams]

/-- An evaluation reads the parameters, the arm's evaluation record and the tiles. -/
theorem State.evaluateProbes_congr {x : Arm} (hevaluation : (t.arm x).evaluation = (s.arm x).evaluation)
    (count : BitVec 4) (m : Nat) (tool : Probe) (elbow : Option Probe) :
    t.evaluateProbes x count m tool elbow = s.evaluateProbes x count m tool elbow := by
  have howners (c : Tile → Bool) : t.foreignOwners x c = s.foreignOwners x c := by
    simp only [State.foreignOwners, htiles]
  simp only [State.evaluateProbes, State.probeEntry_congr hparams htiles, howners, hparams, hevaluation]

theorem State.evaluate_congr {x : Arm} (hevaluation : (t.arm x).evaluation = (s.arm x).evaluation) (rep : Report)
    (m : Nat) : t.evaluate x rep m = s.evaluate x rep m := by
  simp only [State.evaluate, hparams, State.evaluateProbes_congr hparams htiles hevaluation]

end

theorem State.evaluate_cons {s : State} {x : Arm} {rep : Report} {q : Probe} {more : List Probe}
    (h : rep.probes = q :: more) (m : Nat) :
    s.evaluate x rep m =
      some (s.evaluateProbes x rep.count m q (if 0 < (s.params.arm x).elbowRadius then more.head? else none)) := by
  simp only [State.evaluate, Report.evaluated, h, Option.map_some]

theorem State.evaluate_nil {s : State} {x : Arm} {rep : Report} (h : rep.probes = []) (m : Nat) :
    s.evaluate x rep m = none := by
  simp only [State.evaluate, Report.evaluated, h, Option.map_none]

theorem State.count_evaluateProbes (s : State) (x : Arm) (count : BitVec 4) (m : Nat) (tool : Probe) (elbow : Option Probe) :
    (s.evaluateProbes x count m tool elbow).count = count ∧ (s.evaluateProbes x count m tool elbow).missed = m := by
  unfold State.evaluateProbes
  dsimp only
  split <;> exact ⟨rfl, rfl⟩

/-- An evaluation carries the count of its report. -/
theorem State.count_of_evaluate {s : State} {x : Arm} {rep : Report} {m : Nat} {e : Evaluation}
    (h : s.evaluate x rep m = some e) : e.count = rep.count := by
  obtain ⟨q, -, rfl⟩ := Option.map_eq_some_iff.mp h
  exact (s.count_evaluateProbes x rep.count m q.1 q.2).1

/-- The drain test of the arm follows, but for OVERSPEED (R39). -/
def State.handOff (s : State) (x : Arm) (e : Evaluation) : State :=
  if e.result = some .overspeed then s else s.drain x

theorem State.evaluateReport_of_evaluate {s : State} {x : Arm} {rep : Report} {m : Nat} {e : Evaluation}
    (h : s.evaluate x rep m = some e) (st : Start) :
    s.evaluateReport x rep m st = ((s.setEvaluation x (some e)).guardActs x e st).handOff x e := by
  unfold State.evaluateReport
  rw [h]
  rfl

theorem State.evaluateReport_of_none {s : State} {x : Arm} {rep : Report} {m : Nat} (h : s.evaluate x rep m = none)
    (st : Start) : s.evaluateReport x rep m st = if st = .stale then s.tripOwn x .stale else s := by
  unfold State.evaluateReport
  rw [h]

@[simp] theorem State.arm_handOff (s : State) (x y : Arm) (e : Evaluation) : (s.handOff x e).arm y = s.arm y := by
  unfold State.handOff
  split <;> simp

/-- A notice of another kind than GRANTED, SHIFT_DONE and BLOCK_DONE stays over the drain test. -/
theorem State.mem_attention_handOff {s : State} {x : Arm} {e : Evaluation} {p : Party} {n : Notice}
    (hcode : n.code ≠ 1 ∧ n.code ≠ 6 ∧ n.code ≠ 16) (h : n ∈ (s.port p).attention) :
    n ∈ ((s.handOff x e).port p).attention := by
  unfold State.handOff
  split
  · exact h
  · exact State.mem_attention_drain hcode h

@[simp] theorem State.tripTiles_releaseSlot (s : State) (p : Party) (k : SlotNo) (x : Arm) :
    (s.releaseSlot p k).1.tripTiles x = s.tripTiles x := by
  unfold State.releaseSlot
  split <;> simp

@[simp] theorem State.tripTiles_startDrain (s : State) (p : Party) (k j : SlotNo) (x : Arm) :
    (s.startDrain p k j).tripTiles x = s.tripTiles x := by
  unfold State.startDrain
  split <;> simp

@[simp] theorem State.tripTiles_grant (s : State) (n : ClaimName) (r : Rect) (link : Option SlotNo) (x : Arm) :
    (s.grant n r link).1.tripTiles x = s.tripTiles x := by
  unfold State.grant
  dsimp only
  split
  · simp
  · split <;> simp

/-- A grant of an entry of the queue, with its GRANTED notice. -/
def State.grantEntry (s : State) (w : Waiter) : State :=
  (s.grant w.name w.rect w.link).1.raise w.name.party (.granted w.name.slot)

/-- What every grant of a scan keeps, the scan keeps. -/
theorem State.grantScan_keeps {P : State → Prop} {s : State} (hs : P s)
    (hgrant : ∀ (u : State) (w : Waiter), P u → w.name ∈ s.queue → u.waiter w.name = some w →
      u.grantable w.name.party w.rect w.wait.arrival = true → P (u.grantEntry w)) : P s.grantScan := by
  have hentry (acc : State × Bool) (n : ClaimName) (hn : n ∈ s.queue) (hacc : P acc.1) : P (scanEntry acc n).1 := by
    obtain hleft | ⟨w, hwaiter, hgrantable, hgranted⟩ := scanEntry_cases acc n
    · rwa [hleft]
    · have hname := (State.waiter_eq_some.mp hwaiter).1
      rw [hgranted]
      subst hname
      exact hgrant acc.1 w hacc hn hwaiter hgrantable
  have hpass {u : State} (hqueue : u.queue.Sublist s.queue) (hu : P u) : P u.scanPass.1 :=
    List.foldlRecOn (motive := fun acc : State × Bool => P acc.1) u.queue scanEntry hu fun acc hacc n hn =>
      hentry acc n (hqueue.mem hn) hacc
  have hpasses (m : Nat) {u : State} (hqueue : u.queue.Sublist s.queue) (hu : P u) : P (scanPasses m u) := by
    induction m generalizing u with
    | zero => exact hu
    | succ m ih =>
      unfold scanPasses
      split
      · exact ih (((State.Moves.refl u).scanPass).queue_sublist.trans hqueue) (hpass hqueue hu)
      · exact hpass hqueue hu
  exact hpasses _ (List.Sublist.refl _) hs

/-- A grant scan leaves every trip claim. -/
@[simp] theorem State.tripTiles_grantScan (s : State) (x : Arm) : s.grantScan.tripTiles x = s.tripTiles x :=
  State.grantScan_keeps (P := fun u => u.tripTiles x = s.tripTiles x) rfl fun u w hu _ _ _ => by simp [State.grantEntry, hu]

@[simp] theorem State.tripTiles_handOff (s : State) (x y : Arm) (e : Evaluation) :
    (s.handOff x e).tripTiles y = s.tripTiles y := by
  unfold State.handOff
  split
  · rfl
  · obtain hkept | ⟨k, r, target, q, -, -, -, hdrained⟩ := s.drain_cases x
    · rw [hkept]
    · rw [hdrained]; simp

/-- The drain test at an evaluation, where the cover is that of the evaluation (R110 to R112). -/
theorem State.drainTested_handOff {u : State} {x : Arm} {e : Evaluation} (h : (u.arm x).evaluation = some e) :
    u.DrainTested (u.handOff x e) x e := by
  have hcovers (z : Tile) : u.touches x z = e.covers z := by simp [State.touches, h]
  refine ⟨fun hfast => if_pos hfast, fun hslow => ?_⟩
  have hdrain : u.handOff x e = u.drain x := if_neg hslow
  rw [hdrain]
  refine ⟨fun hnone => ?_, fun k r t q hk hbelow hq => ?_⟩
  · unfold State.drain
    rw [State.drainOf_none hnone]
  · have hpasses : u.drainPasses x r q = true ↔ ¬∃ z, r.contains z = true ∧ q.contains z = false ∧ e.covers z = true := by
      simp only [State.drainPasses_iff, hcovers]
    have hunfold : u.drain x = if u.drainPasses x r q = true then
        ((u.releaseSlot x.party k).1.raise x.party (.shiftDone t)).grantScan else u := by
      unfold State.drain
      simp only [State.drainOf_some hk hbelow, hq]
    rw [hunfold]
    exact ⟨fun hstays => if_neg fun hp => hpasses.mp hp hstays, fun hstays => if_pos (hpasses.mpr hstays)⟩

/-! ### The Guard Controller on an evaluation (R39, R121, R122, R144) -/

section
variable {s : State} {x : Arm} {e : Evaluation} {st : Start}

theorem State.guardActs_offline (h : s.guardState x = .offline) : s.guardActs x e st = s := by
  unfold State.guardActs
  rw [h]

theorem State.guardActs_arming (h : s.guardState x = .arming) :
    s.guardActs x e st = if st = .fresh then s.countClean x e else s := by
  unfold State.guardActs
  rw [h]

theorem State.guardActs_live_stale (h : s.guardState x = .live) (hst : st = .stale) :
    s.guardActs x e st = s.tripOwn x .stale := by
  unfold State.guardActs
  rw [h]
  exact if_pos hst

theorem State.guardActs_live_breach {c : Cause} (h : s.guardState x = .live) (hst : st ≠ .stale) (he : e.result = some c) :
    s.guardActs x e st = s.tripOwn x c := by
  unfold State.guardActs
  rw [h]
  exact (if_neg hst).trans (by rw [he])

theorem State.guardActs_live_clear (h : s.guardState x = .live) (hst : st ≠ .stale) (he : e.result = none) :
    s.guardActs x e st = s := by
  unfold State.guardActs
  rw [h]
  exact (if_neg hst).trans (by rw [he])

/-- The guard of a TRIPPED arm after an evaluation: a breach is noted as the second (R144). -/
def Guard.noted (g : Guard) (e : Evaluation) : Guard :=
  if e.result.isSome = true then { g with trip := g.trip.map fun r => { r with secondBreach := true } } else g

theorem State.guardActs_tripped (h : s.guardState x = .tripped) :
    s.guardActs x e st = s.setGuard x ((s.arm x).guard.noted e) := by
  unfold State.guardActs Guard.noted
  rw [h]
  dsimp only
  split
  · rfl
  · rw [State.setGuard, State.setArm_arm]

end

/-- An evaluation that counts as clean: CLEAR, with every probe at CREEP or slower (R121). -/
def Evaluation.Clean (e : Evaluation) (creep : Nat) : Prop :=
  e.result = none ∧ e.tool.speed ≤ creep ∧ ∀ b, e.elbow = some b → b.speed ≤ creep

theorem Evaluation.clean_iff {e : Evaluation} {creep : Nat} :
    e.Clean creep ↔ e.result = none ∧ e.slow creep = true := by
  unfold Evaluation.Clean Evaluation.slow Evaluation.maxSpeed
  cases e.elbow <;> simp

section
variable {s : State} {x : Arm} {e : Evaluation}

theorem State.countClean_live (h : e.Clean (s.params.arm x).creep)
    (hcount : (s.params.arm x).rearmCount ≤ (s.arm x).guard.clean + 1) :
    s.countClean x e =
      (s.setGuard x { (s.arm x).guard with state := .live, permit := true, clean := (s.arm x).guard.clean + 1 }).raise
        x.party (.live e.count) :=
  (if_pos (Evaluation.clean_iff.mp h)).trans (if_pos hcount)

theorem State.countClean_counts (h : e.Clean (s.params.arm x).creep)
    (hcount : (s.arm x).guard.clean + 1 < (s.params.arm x).rearmCount) :
    s.countClean x e = s.setGuard x { (s.arm x).guard with clean := (s.arm x).guard.clean + 1 } :=
  (if_pos (Evaluation.clean_iff.mp h)).trans (if_neg (by omega))

theorem State.countClean_breaks (h : ¬e.Clean (s.params.arm x).creep) :
    s.countClean x e = s.setGuard x { (s.arm x).guard with clean := 0 } :=
  if_neg fun hc => h (Evaluation.clean_iff.mpr hc)

end

/-! ### A fresh report (R47, R48) -/

/-- The Report Monitor after a fresh report of a joined arm (R48). -/
def State.freshMonitor (s : State) (x : Arm) (rep : Report) : Monitor :=
  ⟨some rep, some rep.count, 0, some (s.params.arm x).reportPeriod⟩

theorem State.freshReport_of_joined {s : State} {x : Arm} {rep : Report} (h : s.guardState x ≠ .offline) :
    s.freshReport x rep = (s.setMonitor x (s.freshMonitor x rep)).evaluateReport x rep 0 .fresh :=
  if_neg h

/-- A fresh report of a joined arm: its evaluation, its guard and the drain test (R48). -/
theorem State.freshReport_of_evaluate {s : State} {x : Arm} {rep : Report} {e : Evaluation}
    (h : s.guardState x ≠ .offline) (he : s.evaluate x rep 0 = some e) :
    s.freshReport x rep =
      ((s.setArm x ⟨s.freshMonitor x rep, some e, (s.arm x).guard⟩).guardActs x e .fresh).handOff x e := by
  have hcongr : (s.setMonitor x (s.freshMonitor x rep)).evaluate x rep 0 = some e :=
    (State.evaluate_congr (by simp) (by funext z; simp) (by simp) rep 0).trans he
  rw [State.freshReport_of_joined h, State.evaluateReport_of_evaluate hcongr]
  simp [State.setEvaluation, State.setMonitor]

/-- No report and no expiry moves the control fields. -/
theorem State.Moves.controlKept {s t : State} (h : s.Moves t) : s.ControlKept t := by
  obtain ⟨hmode, hepoch, hparams, hlevel, hheld, hpin, hfree, hpending⟩ := h.control
  obtain ⟨held, pin, mode, epoch, level, params, tiles, closing, claims, queue, a, b, pa, pb, pc, free, pending⟩ := t
  dsimp only at *
  subst hmode hepoch hparams hlevel hheld hpin hfree hpending
  rfl

/-- Settles O23, by the guard state of the arm. -/
theorem freshReportIsStoredAndEvaluated : Obligations.FreshReportIsStoredAndEvaluated := by
  unfold Obligations.FreshReportIsStoredAndEvaluated
  intro x rep s
  refine ⟨fun hx => if_pos hx, fun hx => ?_⟩
  have hfresh := State.freshReport_of_joined (rep := rep) hx
  have hparts (y : Arm) := parts_evaluateReport (s.setMonitor x (s.freshMonitor x rep)) x rep 0 .fresh y
  refine ⟨?_, fun q more hprobes => ?_, ?_, ?_, ((State.Moves.refl s).freshReport x rep).controlKept⟩
  · rw [hfresh, (hparts x).1]; simp [State.freshMonitor]
  · intro e g a clean withGuard
    have hunfold := State.freshReport_of_evaluate hx (State.evaluate_cons (s := s) (x := x) hprobes 0)
    have hset (h : Guard) : (withGuard g).setGuard x h = withGuard h := by simp [withGuard, State.setGuard]
    have harm : (withGuard g).arm x = ⟨s.freshMonitor x rep, some e, g⟩ := by simp [withGuard, State.freshMonitor]
    have hparams : (withGuard g).params = s.params := by simp [withGuard]
    have hstate : (withGuard g).guardState x = s.guardState x := by simp [withGuard, g, State.guardState]
    have hcount : e.count = rep.count := (s.count_evaluateProbes ..).1
    have hevaluation : (((withGuard g).guardActs x e .fresh).arm x).evaluation = some e := by simp [harm]
    refine ⟨by rw [hunfold, State.arm_handOff]; exact hevaluation, (withGuard g).guardActs x e .fresh, ?_, ?_, ?_, ?_, ?_⟩
    · rw [hunfold]; exact State.drainTested_handOff hevaluation
    · intro harming
      rw [State.guardActs_arming (hstate.trans harming), if_pos rfl]
      refine ⟨fun hclean hn => ?_, fun hclean hn => ?_, fun hclean => ?_⟩
      · rw [State.countClean_live (by rw [hparams]; exact hclean) (by rw [hparams, harm]; exact hn), harm, hset, hcount]
      · rw [State.countClean_counts (by rw [hparams]; exact hclean) (by rw [hparams, harm]; exact hn), harm, hset]
      · rw [State.countClean_breaks (by rw [hparams]; exact hclean), harm, hset]
    · exact fun hlive hclear => State.guardActs_live_clear (hstate.trans hlive) (by simp) hclear
    · exact fun c hlive hbreach => State.guardActs_live_breach (hstate.trans hlive) (by simp) hbreach
    · intro htripped
      rw [State.guardActs_tripped (hstate.trans htripped), harm, hset]
      rfl
  · rw [hfresh, (hparts x.other).1, State.arm_setMonitor_of_ne _ _ (Arm.other_ne x)]
  · rw [hfresh, (hparts x.other).2 (Arm.other_ne x), State.arm_setMonitor_of_ne _ _ (Arm.other_ne x)]

end Sys2Proof.Machine
end

section
/-! SUPPORT. The steps of a trip and its spread to the other arm, and the statement on them. -/

namespace Sys2Proof.Machine

open Sys2Proof

/-! ### States that differ in their ports alone -/

/-- The state `t` is `s` but for its ports. -/
def State.SamePlant (s t : State) : Prop := t = { s with portA := t.portA, portB := t.portB, portC := t.portC }

namespace State.SamePlant

variable {s t u : State}

@[refl] theorem refl (s : State) : s.SamePlant s := rfl

@[trans] theorem trans (h : s.SamePlant t) (hu : t.SamePlant u) : s.SamePlant u := by
  unfold State.SamePlant at *
  rw [hu, h]

theorem raise (h : s.SamePlant t) (p : Party) (n : Notice) : s.SamePlant (t.raise p n) :=
  h.trans (by cases p <;> rfl)

theorem raiseIntrusion (h : s.SamePlant t) (x : Arm) (o : Option Tile) : s.SamePlant (t.raiseIntrusion x o) := by
  cases o with
  | none => exact h
  | some z => exact h.raise .C _

theorem announceTrip (h : s.SamePlant t) (x : Arm) (c : Cause) : s.SamePlant (t.announceTrip x c) :=
  (h.raise _ _).raise _ _

theorem params (h : s.SamePlant t) : t.params = s.params := by rw [h]

theorem closing (h : s.SamePlant t) : t.closing = s.closing := by rw [h]

theorem queue (h : s.SamePlant t) : t.queue = s.queue := by rw [h]

theorem arm (h : s.SamePlant t) (x : Arm) : t.arm x = s.arm x := by rw [h]; cases x <;> rfl

theorem tile (h : s.SamePlant t) (z : Tile) : t.tile z = s.tile z := by rw [h]; rfl

theorem slot (h : s.SamePlant t) (p : Party) (k : SlotNo) : t.slot p k = s.slot p k := by rw [h]; rfl

theorem tripTiles (h : s.SamePlant t) (x : Arm) : t.tripTiles x = s.tripTiles x := by rw [h]; rfl

theorem queueOrder (h : s.SamePlant t) (horder : s.QueueOrder) : t.QueueOrder := horder.of_slots h.queue h.slot

end State.SamePlant

/-! ### The cancellation of a PENDING claim (R95 to R97) -/

/-- A claim that is not PENDING, or another party's, is left by a cancellation. -/
theorem State.slot_cancelPending_of_left {s : State} {p q : Party} {c : CancelCause} {k : SlotNo}
    (h : (s.slot q k).state ≠ .pending ∨ q ≠ p) : (s.cancelPending p c).slot q k = s.slot q k := by
  unfold State.cancelPending
  split
  · rename_i w hw
    obtain ⟨hmem, hparty⟩ := State.pendingOf_some hw
    have hslot := (State.mem_waiters.mp hmem).2
    rw [State.slot_raise, State.slot_removePending]
    refine if_neg fun hname => ?_
    obtain ⟨hq, hk⟩ := hname
    refine h.elim (fun hstate => hstate ?_) fun hne => hne (hq.trans hparty)
    rw [hq, hk, hslot]; rfl
  · rfl

/-- Under the queue's order every PENDING claim of the party is cancelled, with its notice. -/
theorem State.QueueOrder.cancelled {s : State} (h : s.QueueOrder) {p : Party} {k : SlotNo} (c : CancelCause)
    (hk : (s.slot p k).state = .pending) :
    (s.cancelPending p c).slot p k = .empty ∧ Notice.cancelled k c ∈ ((s.cancelPending p c).port p).attention := by
  have hentry : (⟨p, k⟩ : ClaimName) ∈ s.queue := by
    rw [h.pending]
    unfold State.arrivalOf
    revert hk
    cases s.slot p k <;> simp [Claim.state, Claim.arrival]
  unfold State.cancelPending
  split
  · rename_i w hw
    obtain ⟨hmem, hparty⟩ := State.pendingOf_some hw
    have hname : w.name = ⟨p, k⟩ := h.eq_of_party (State.mem_waiters.mp hmem).1 hentry hparty
    rw [hname]
    exact ⟨by simp [State.slot_removePending], State.mem_attention_raise ..⟩
  · rename_i hnone
    exact absurd rfl (h.party_ne_of_pendingOf_none hnone hentry)

/-- A cancellation raises CANCELLED at the party's port. -/
theorem State.raises_cancelPending (s : State) (p : Party) (c : CancelCause) :
    s.Raises (fun q n => q = p ∧ ∃ k, (s.slot p k).state = .pending ∧ n = .cancelled k c) (s.cancelPending p c) := by
  unfold State.cancelPending
  split
  · rename_i w hw
    obtain ⟨hmem, hparty⟩ := State.pendingOf_some hw
    have hslot := (State.mem_waiters.mp hmem).2
    refine State.Raises.raise (.of_port_eq (.refl s) fun q => by simp) ⟨rfl, w.name.slot, ?_, rfl⟩
    rw [← hparty, hslot]; rfl
  · exact .refl s

/-! ### Steps 1 to 3 of a trip (R133, R135) -/

theorem State.touches_congr {s t : State} {x : Arm} (h : (t.arm x).evaluation = (s.arm x).evaluation) (z : Tile) :
    t.touches x z = s.touches x z := by
  simp only [State.touches, h]

theorem State.tripTakes_congr {s t : State} {x : Arm} (h : (t.arm x).evaluation = (s.arm x).evaluation)
    (htile : ∀ z, t.tile z = s.tile z) : t.tripTakes x = s.tripTakes x := by
  funext z
  simp only [State.tripTakes, State.touches_congr h, htile]

theorem State.tripContested_congr {s t : State} {x : Arm} (h : (t.arm x).evaluation = (s.arm x).evaluation)
    (htile : ∀ z, t.tile z = s.tile z) : t.tripContested x = s.tripContested x := by
  simp only [State.tripContested, State.touches_congr h, htile]

section
variable (s : State) (x : Arm) (c : Cause) (own : Bool) (o : Option Tile)

theorem State.tripTakes_of_tripStarted :
    ((s.tripGuard x c own o).cancelPending x.party .trip).tripTakes x = s.tripTakes x :=
  State.tripTakes_congr (by simp [State.tripGuard]) fun z => by simp

theorem State.tile_tripBegin (z : Tile) :
    (s.tripBegin x c own o).tile z =
      if s.tripTakes x z = true then { s.tile z with owner := some x.party, hold := (s.tile z).hold + 1 }
      else s.tile z := by
  rw [State.tripBegin, Machine.tile_buildTripClaim, s.tripTakes_of_tripStarted x c own o]
  simp

theorem State.tripTiles_tripBegin : (s.tripBegin x c own o).tripTiles x = allTiles.filter (s.tripTakes x) := by
  rw [State.tripBegin, Machine.tripTiles_buildTripClaim, s.tripTakes_of_tripStarted x c own o]

/-- The record of an arm after steps 1 to 3 of its trip (R135, R142). -/
def State.newRecord : TripRecord :=
  { s.tripRecord x c own o with contested := s.tripContested x, tileCount := countTiles (s.tripTakes x) }

theorem State.arm_tripBegin :
    (s.tripBegin x c own o).arm x =
      { s.arm x with guard := ⟨.tripped, false, 0, (s.arm x).guard.joined, some (s.newRecord x c own o)⟩ } := by
  have hcontested : ((s.tripGuard x c own o).cancelPending x.party .trip).tripContested x = s.tripContested x :=
    State.tripContested_congr (by simp [State.tripGuard]) fun z => by simp
  rw [State.tripBegin, arm_buildTripClaim, s.tripTakes_of_tripStarted x c own o, hcontested]
  simp [State.tripGuard, Guard.mapTrip, State.newRecord]

theorem State.slot_tripBegin (p : Party) (k : SlotNo) :
    (s.tripBegin x c own o).slot p k = (s.cancelPending x.party .trip).slot p k := by
  rw [State.tripBegin, slot_buildTripClaim]
  simp only [State.cancelPending, State.pendingOf, State.waiters_congr (s := s) (t := s.tripGuard x c own o) (by simp) (by simp)]
  split <;> simp [State.slot_removePending]

theorem State.port_tripBegin (p : Party) :
    (s.tripBegin x c own o).port p = (s.cancelPending x.party .trip).port p := by
  rw [State.tripBegin, port_buildTripClaim]
  simp only [State.cancelPending, State.pendingOf, State.waiters_congr (s := s) (t := s.tripGuard x c own o) (by simp) (by simp)]
  split
  · by_cases hp : p = x.party
    · subst hp; simp [State.port_raise]
    · simp [State.port_raise_of_ne _ _ hp]
  · simp

variable {s} in
theorem State.QueueOrder.queue_tripBegin (h : s.QueueOrder) :
    (s.tripBegin x c own o).queue = s.queue.filter fun n => n.party ≠ x.party := by
  have hguard : (s.tripGuard x c own o).QueueOrder := h.of_slots (by simp) fun p k => by simp
  simp only [State.tripBegin, State.buildTripClaim_frame, hguard.queue_cancelPending, State.tripGuard_frame]

end

section
variable {s : State} {x : Arm} {c : Cause} {own : Bool} {o : Option Tile}

theorem State.tripTiles_tripBegin_of_ne {y : Arm} (h : y ≠ x) : (s.tripBegin x c own o).tripTiles y = s.tripTiles y := by
  rw [State.tripBegin, tripTiles_buildTripClaim_of_ne _ h]
  unfold State.cancelPending
  split <;> simp [State.removePending]

/-- A tile that another party owns after steps 1 to 3 of a trip is one that it owned before. -/
theorem State.owner_tripBegin {p : Party} (hp : p ≠ x.party) (z : Tile) :
    ((s.tripBegin x c own o).tile z).owner = some p ↔ (s.tile z).owner = some p := by
  rw [State.tile_tripBegin]
  split
  · rename_i htaken
    obtain ⟨-, howner | ⟨howner, -⟩⟩ := State.tripTakes_iff.mp htaken
    · simp [howner]
    · simp [howner, hp.symm]
  · rfl

/-- Steps 1 to 3 of a trip leave the contact that the trip judges. -/
theorem State.contact_tripBegin : (s.tripBegin x c own o).contact x = s.contact x := by
  have howner (z : Tile) : (((s.tripBegin x c own o).tile z).owner == some x.other.party) =
      ((s.tile z).owner == some x.other.party) := by
    rw [Bool.eq_iff_iff, beq_iff_eq, beq_iff_eq]
    exact State.owner_tripBegin (fun h => Arm.other_ne x (Arm.party_injective h)) z
  simp only [State.contact, State.arm_tripBegin, howner]

theorem State.intruded_tripBegin (y : Arm) : (s.tripBegin x c own o).intruded y = s.intruded y := by
  have howner (z : Tile) : (((s.tripBegin x c own o).tile z).owner == some Party.C) =
      ((s.tile z).owner == some Party.C) := by
    rw [Bool.eq_iff_iff, beq_iff_eq, beq_iff_eq]
    exact State.owner_tripBegin (Arm.party_ne_C x).symm z
  have harm : ((s.tripBegin x c own o).arm y).evaluation = (s.arm y).evaluation := by
    obtain rfl | hy := Arm.eq_or_eq_other x y
    · rw [State.arm_tripBegin]
    · rw [arm_tripBegin_of_ne s c own o (hy ▸ Arm.other_ne x)]
  simp only [State.intruded, State.touches_congr harm, howner]

end

/-! ### The grant scan and a party without queue entry -/

theorem State.slot_releaseSlot_of_ne (s : State) {p q : Party} (k j : SlotNo) (h : q ≠ p) :
    (s.releaseSlot p k).1.slot q j = s.slot q j := by
  unfold State.releaseSlot
  split
  · rfl
  · simp [State.slot_setSlot_eq, h, State.slot_mapSlots_of_ne _ _ _ h]

theorem State.slot_startDrain_of_ne (s : State) {p q : Party} (k j i : SlotNo) (h : q ≠ p) :
    (s.startDrain p k j).slot q i = s.slot q i := by
  unfold State.startDrain
  split <;> simp [State.slot_setSlot_eq, h]

/-- A grant leaves the slots of the other parties. -/
theorem State.slot_grant_of_ne (s : State) {n : ClaimName} {q : Party} (r : Rect) (l : Option SlotNo) (k : SlotNo)
    (h : q ≠ n.party) : (s.grant n r l).1.slot q k = s.slot q k := by
  have hheld : (((s.addHolds n.party r.contains).dequeue n).setSlot n.party n.slot (.held r l)).slot q k = s.slot q k := by
    simp [State.slot_setSlot_eq, h]
  unfold State.grant
  dsimp only
  split
  · exact hheld
  · split
    · rename_i hC
      exact (State.slot_releaseSlot_of_ne _ _ _ (hC ▸ h)).trans hheld
    · rename_i hA
      exact (State.slot_startDrain_of_ne _ _ _ _ (hA ▸ h)).trans hheld
    · rename_i hB
      exact (State.slot_startDrain_of_ne _ _ _ _ (hB ▸ h)).trans hheld

/-- A grant scan leaves the slots of a party that has no claim in the queue. -/
theorem State.slot_grantScan_of_no_entry {s : State} {p : Party} (h : ∀ n ∈ s.queue, n.party ≠ p) (k : SlotNo) :
    s.grantScan.slot p k = s.slot p k :=
  State.grantScan_keeps (P := fun u => u.slot p k = s.slot p k) rfl fun _ _ hu hw _ _ =>
    ((State.slot_raise ..).trans (State.slot_grant_of_ne _ _ _ _ (h _ hw).symm)).trans hu

/-! ### Contact and scope (R137 to R139) -/

/-- The evaluation of a tripping arm reaches over the far side. -/
def State.FarContact (s : State) (x : Arm) : Prop :=
  ∃ e v, (s.arm x).evaluation = some e ∧ v ∈ e.envelopes ∧ v.farSide x = true

/-- The evaluation of a tripping arm covers a tile of the other arm. -/
def State.ForeignContact (s : State) (x : Arm) : Prop :=
  ∃ e, (s.arm x).evaluation = some e ∧ e.foreign.has x.other.party = true

theorem State.contact_cases (s : State) (x : Arm) :
    (s.FarContact x ∧ s.contact x = some (.farContact, none)) ∨
    (¬s.FarContact x ∧ s.ForeignContact x ∧ ∃ o, s.contact x = some (.foreignContact, o) ∧
      ∀ z, IsFirst (fun z => s.touches x z = true ∧ (s.tile z).owner = some x.other.party) z → o = some z) ∨
    (¬s.FarContact x ∧ ¬s.ForeignContact x ∧ s.contact x = none) := by
  unfold State.FarContact State.ForeignContact State.contact
  cases he : (s.arm x).evaluation with
  | none => simp
  | some e =>
    have hfar : (∃ e' v, e = e' ∧ v ∈ e'.envelopes ∧ v.farSide x = true) ↔ e.farSide x = true := by
      simp [Evaluation.farSide]
    have htouches (z : Tile) : s.touches x z = e.covers z := by simp [State.touches, he]
    simp only [Option.some.injEq, hfar, exists_eq_left', htouches]
    split_ifs with hx hy
    · exact .inl ⟨hx, rfl⟩
    · refine .inr (.inl ⟨hx, hy, _, rfl, fun z hz => firstTile_eq_some_iff.mpr ?_⟩)
      exact (isFirst_congr (fun z => by simp) z).mpr hz
    · exact .inr (.inr ⟨hx, hy, rfl⟩)

/-- What an imposed trip is, with the notices that it raises after its steps 1 to 3. -/
theorem State.tripImposed_eq (s : State) (y : Arm) (c : Cause) (o : Option Tile) :
    s.tripImposed y c o = ((s.tripBegin y c false o).raiseIntrusion y (s.intruded y)).announceTrip y c := by
  rw [State.tripImposed, State.intruded_tripBegin]

section
variable {s : State} {x : Arm} {c : Cause}

theorem State.trippable_congr {s t : State} {y : Arm} (h : t.arm y = s.arm y) : t.trippable y = s.trippable y := by
  simp only [State.trippable, State.guardState, h]

/-- A trip with no contact and no scope trips the arm alone. -/
theorem State.tripOwn_alone (h : s.trippable x.other = false ∨ s.contact x = none ∧ s.params.tripScope ≠ .paired) :
    s.tripOwn x c =
      (((s.tripBegin x c true none).raiseIntrusion x (s.intruded x)).announceTrip x c).grantScan := by
  have harm : (s.tripBegin x c true none).arm x.other = s.arm x.other := arm_tripBegin_of_ne _ _ _ _ (Arm.other_ne x)
  have hcontact : (s.tripBegin x c true none).contactTrip x = s.tripBegin x c true none := by
    unfold State.contactTrip
    rw [State.contact_tripBegin, State.trippable_congr harm]
    obtain h | h := h
    · split
      · rfl
      · rw [h]; rfl
    · rw [h.1]
  have hscope : ((s.tripBegin x c true none).raiseIntrusion x (s.intruded x)).scopeTrip x c =
      (s.tripBegin x c true none).raiseIntrusion x (s.intruded x) := by
    refine if_neg fun hboth => ?_
    rw [State.trippable_congr (s := s) (by rw [arm_raiseIntrusion, harm])] at hboth
    simp only [State.raiseIntrusion_frame, State.tripBegin_frame] at hboth
    exact h.elim (fun h => by simp [h] at hboth) fun h => h.2 hboth.1
  unfold State.tripOwn
  dsimp only
  rw [hcontact, State.intruded_tripBegin, hscope]

/-- A trip with a contact trips the other arm before INTRUSION is judged. -/
theorem State.tripOwn_contact {d : Cause} {o : Option Tile} (hy : s.trippable x.other = true)
    (h : s.contact x = some (d, o)) :
    s.tripOwn x c = ((((s.tripBegin x c true none).tripImposed x.other d o).raiseIntrusion x
      (s.intruded x)).announceTrip x c).grantScan := by
  have harm : (s.tripBegin x c true none).arm x.other = s.arm x.other := arm_tripBegin_of_ne _ _ _ _ (Arm.other_ne x)
  have hcontact : (s.tripBegin x c true none).contactTrip x = (s.tripBegin x c true none).tripImposed x.other d o := by
    unfold State.contactTrip
    rw [State.contact_tripBegin, h]
    exact if_pos (by rw [State.trippable_congr harm, hy])
  have hscope (u : State) (hu : (u.arm x.other).guard.state = .tripped) : u.scopeTrip x c = u :=
    if_neg fun hboth => by simp [State.trippable, State.guardState, hu] at hboth
  unfold State.tripOwn
  dsimp only
  rw [hcontact, State.intruded_tripBegin, hscope]
  rw [arm_raiseIntrusion]
  exact (guard_tripImposed _ _ _ _).1

/-- Under PAIRED a trip without contact trips the other arm with the same cause. -/
theorem State.tripOwn_scope (hy : s.trippable x.other = true) (h : s.contact x = none)
    (hscope : s.params.tripScope = .paired) :
    s.tripOwn x c = ((((s.tripBegin x c true none).raiseIntrusion x (s.intruded x)).tripImposed x.other c
      none).announceTrip x c).grantScan := by
  have harm : (s.tripBegin x c true none).arm x.other = s.arm x.other := arm_tripBegin_of_ne _ _ _ _ (Arm.other_ne x)
  have hcontact : (s.tripBegin x c true none).contactTrip x = s.tripBegin x c true none := by
    unfold State.contactTrip
    rw [State.contact_tripBegin, h]
  have hspread : ((s.tripBegin x c true none).raiseIntrusion x (s.intruded x)).scopeTrip x c =
      ((s.tripBegin x c true none).raiseIntrusion x (s.intruded x)).tripImposed x.other c none := by
    refine if_pos ⟨by simpa using hscope, ?_⟩
    rw [State.trippable_congr (s := s) (by rw [arm_raiseIntrusion, harm]), hy]
  unfold State.tripOwn
  dsimp only
  rw [hcontact, State.intruded_tripBegin, hspread]

end

/-! ### What the trip of an arm lays down before the grant scan -/

/-- The state `w` holds what steps 1 to 3 of the trip of an arm lay down, and its notices. -/
structure State.TripLaid (s w : State) (x : Arm) (c : Cause) (own : Bool) (o : Option Tile) : Prop where
  arm : w.arm x = (s.tripBegin x c own o).arm x
  tripTiles : w.tripTiles x = allTiles.filter (s.tripTakes x)
  tile : ∀ z, s.tripTakes x z = true → w.tile z = { s.tile z with owner := some x.party, hold := (s.tile z).hold + 1 }
  slot : ∀ k, w.slot x.party k = (s.cancelPending x.party .trip).slot x.party k
  queue : w.queue.Sublist (s.tripBegin x c own o).queue
  cancelled : ∀ k, Notice.cancelled k .trip ∈ ((s.cancelPending x.party .trip).port x.party).attention →
    Notice.cancelled k .trip ∈ (w.port x.party).attention
  tripped : Notice.tripped c ∈ (w.port x.party).attention

namespace State.TripLaid

variable {s w : State} {x : Arm} {c : Cause} {own : Bool} {o : Option Tile}

theorem tripped_grantScan (h : s.TripLaid w x c own o) : Notice.tripped c ∈ (w.grantScan.port x.party).attention :=
  (State.mem_attention_grantScan (by simp [Notice.code])).mpr h.tripped

/-- Under the queue's order the arm has no claim in the queue. -/
theorem party_ne (h : s.TripLaid w x c own o) (horder : s.QueueOrder) {n : ClaimName} (hn : n ∈ w.queue) :
    n.party ≠ x.party := by
  have hmem := h.queue.mem hn
  rw [horder.queue_tripBegin, List.mem_filter] at hmem
  simpa using hmem.2

/-- Under the queue's order the PENDING claim of the arm has been cancelled. -/
theorem pendingCancelled (h : s.TripLaid w x c own o) (horder : s.QueueOrder) : s.PendingCancelled w.grantScan x := by
  intro k hk
  obtain ⟨hslot, hnotice⟩ := horder.cancelled .trip hk
  have hentries : ∀ n ∈ w.queue, n.party ≠ x.party := fun n => h.party_ne horder
  refine ⟨?_, fun hmem => hentries _ (((State.Moves.refl w).grantScan).queue_sublist.mem hmem) rfl, ?_⟩
  · rw [State.slot_grantScan_of_no_entry hentries, h.slot, hslot]
  · exact (State.mem_attention_grantScan (by simp [Notice.code])).mpr (h.cancelled k hnotice)

/-- The arm is TRIPPED over its trip claim, with its record written anew. -/
theorem guard (h : s.TripLaid w x c own o) :
    (w.grantScan.arm x).guard = ⟨.tripped, false, 0, (s.arm x).guard.joined, some (s.newRecord x c own o)⟩ := by
  rw [arm_grantScan, h.arm, State.arm_tripBegin]

theorem tripTiles_grantScan (h : s.TripLaid w x c own o) :
    w.grantScan.tripTiles x = allTiles.filter (s.tripTakes x) := (State.tripTiles_grantScan w x).trans h.tripTiles

theorem mem_tripTiles (h : s.TripLaid w x c own o) {z : Tile} :
    z ∈ w.grantScan.tripTiles x ↔ s.tripTakes x z = true := by
  rw [h.tripTiles_grantScan, List.mem_filter]; simp

theorem nodup_tripTiles (h : s.TripLaid w x c own o) : (w.grantScan.tripTiles x).Nodup := by
  rw [h.tripTiles_grantScan]; exact allTiles_nodup.filter _

/-- The record counts the tiles of the trip claim. -/
theorem tileCount (h : s.TripLaid w x c own o) : (s.newRecord x c own o).tileCount = (w.grantScan.tripTiles x).length := by
  rw [h.tripTiles_grantScan, length_filter_allTiles]; rfl

end State.TripLaid

/-! ### The notices of a trip at the arms' ports -/

section
variable (s : State) (x : Arm) (c : Cause)

@[simp] theorem State.port_raiseIntrusion (y : Arm) (o : Option Tile) : (s.raiseIntrusion y o).port x.party = s.port x.party := by
  cases o with
  | none => rfl
  | some z => exact State.port_raise_of_ne _ _ (Arm.party_ne_C x)

@[simp] theorem State.port_announceTrip : (s.announceTrip x c).port x.party = (s.port x.party).raise (.tripped c) := by
  rw [State.announceTrip, State.port_raise_of_ne _ _ (Arm.party_ne_C x), State.port_raise]

theorem State.port_announceTrip_of_ne {y : Arm} (h : y ≠ x) : (s.announceTrip x c).port y.party = s.port y.party := by
  rw [State.announceTrip, State.port_raise_of_ne _ _ (Arm.party_ne_C y),
    State.port_raise_of_ne _ _ fun hp => h (Arm.party_injective hp)]

theorem State.port_tripBegin_of_ne {p : Party} (own : Bool) (o : Option Tile) (h : p ≠ x.party) :
    (s.tripBegin x c own o).port p = s.port p := by
  rw [State.port_tripBegin]
  exact (s.raises_cancelPending x.party .trip).port_eq fun n hn => h hn.1

end

/-- CANCELLED and TRIPPED at the port of an arm that trips. -/
theorem State.mem_tripped_of_port {s w : State} {x : Arm} {c : Cause} {own : Bool} {o : Option Tile}
    (h : w.port x.party = ((s.tripBegin x c own o).port x.party).raise (.tripped c)) :
    Notice.tripped c ∈ (w.port x.party).attention ∧
    ∀ k, Notice.cancelled k .trip ∈ ((s.cancelPending x.party .trip).port x.party).attention →
      Notice.cancelled k .trip ∈ (w.port x.party).attention := by
  rw [h, State.port_tripBegin]
  exact ⟨mem_insertNotice_self _ _, fun k hk => mem_insertNotice_of_ne hk (by simp [Notice.code])⟩

/-- Steps 1 to 3 with notices alone after them. -/
theorem State.SamePlant.tripLaid {s w : State} {x : Arm} {c : Cause} {own : Bool} {o : Option Tile}
    (h : (s.tripBegin x c own o).SamePlant w)
    (hport : w.port x.party = ((s.tripBegin x c own o).port x.party).raise (.tripped c)) : s.TripLaid w x c own o where
  arm := h.arm x
  tripTiles := (h.tripTiles x).trans (s.tripTiles_tripBegin x c own o)
  tile z hz := by rw [h.tile, s.tile_tripBegin x c own o, if_pos hz]
  slot k := (h.slot _ _).trans (s.slot_tripBegin x c own o _ _)
  queue := h.queue ▸ List.Sublist.refl _
  cancelled := (State.mem_tripped_of_port hport).2
  tripped := (State.mem_tripped_of_port hport).1

/-- The trip of the other arm leaves what a trip has laid down. -/
theorem State.TripLaid.then {s v w : State} {x : Arm} {c d : Cause} {own : Bool} {o o' : Option Tile}
    (hv : (s.tripBegin x c own o).SamePlant v) (hw : (v.tripBegin x.other d false o').SamePlant w)
    (hport : w.port x.party = ((s.tripBegin x c own o).port x.party).raise (.tripped c)) : s.TripLaid w x c own o where
  arm := by rw [hw.arm, arm_tripBegin_of_ne _ _ _ _ (Arm.other_ne x).symm, hv.arm]
  tripTiles := by
    rw [hw.tripTiles, State.tripTiles_tripBegin_of_ne (Arm.other_ne x).symm, hv.tripTiles, State.tripTiles_tripBegin]
  tile z hz := by
    have hlaid : v.tile z = _ := (hv.tile z).trans ((s.tile_tripBegin x c own o z).trans (if_pos hz))
    rw [hw.tile, State.tile_tripBegin, if_neg, hlaid]
    rw [State.tripTakes_iff, hlaid]
    simpa using fun _ hp => (Arm.other_ne x).symm (Arm.party_injective hp)
  slot k := by
    have hparty : x.party ≠ x.other.party := fun hp => (Arm.other_ne x).symm (Arm.party_injective hp)
    rw [hw.slot, State.slot_tripBegin, State.slot_cancelPending_of_left (.inr hparty), hv.slot, State.slot_tripBegin]
  queue := by
    rw [hw.queue, ← hv.queue]
    unfold State.tripBegin
    simp only [State.buildTripClaim_frame]
    unfold State.cancelPending
    split <;> simp
  cancelled := (State.mem_tripped_of_port hport).2
  tripped := (State.mem_tripped_of_port hport).1

/-! ### The trip with an own cause (R133) -/

/-- A notice of the Cell Port of another kind than ARM_TRIPPED stays as the trip is announced. -/
theorem State.mem_attention_announceTrip_of_mem {s : State} {x : Arm} {c : Cause} {n : Notice}
    (h : n ∈ (s.port .C).attention) (hcode : n.code ≠ (Notice.armTripped x).code) :
    n ∈ ((s.announceTrip x c).port .C).attention := by
  rw [State.announceTrip, State.port_raise]
  refine mem_insertNotice_of_ne ?_ hcode
  rw [State.port_raise_of_ne _ _ (Arm.party_ne_C x).symm]
  exact h

/-- The trip of the other arm that a trip of `x` brings about, by contact or by scope: the states before and after it. -/
structure State.SpreadTo (s v w : State) (x : Arm) (c d : Cause) (o : Option Tile) : Prop where
  before : (s.tripBegin x c true none).SamePlant v
  after : (v.tripBegin x.other d false o).SamePlant w
  first : s.TripLaid w x c true none
  second : v.TripLaid w x.other d false o

section
variable (s : State) (x : Arm) (c d : Cause) (o : Option Tile)

/-- A trip without spread, before its grant scan. -/
theorem State.tripLaid_alone :
    s.TripLaid (((s.tripBegin x c true none).raiseIntrusion x (s.intruded x)).announceTrip x c) x c true none :=
  (((State.SamePlant.refl _).raiseIntrusion _ _).announceTrip _ _).tripLaid (by simp)

/-- The spread by contact, before INTRUSION of the tripping arm. -/
theorem State.spreadTo_contact :
    s.SpreadTo (s.tripBegin x c true none) ((((s.tripBegin x c true none).tripImposed x.other d o).raiseIntrusion x
      (s.intruded x)).announceTrip x c) x c d o := by
  have hne := Arm.other_ne x
  have hparty : x.party ≠ x.other.party := fun hp => hne (Arm.party_injective hp.symm)
  have hafter : ((s.tripBegin x c true none).tripBegin x.other d false o).SamePlant
      ((((s.tripBegin x c true none).tripImposed x.other d o).raiseIntrusion x (s.intruded x)).announceTrip x c) :=
    (((State.SamePlant.refl _).raiseIntrusion _ _).announceTrip _ _).raiseIntrusion _ _ |>.announceTrip _ _
  refine ⟨.refl _, hafter, .then (.refl _) hafter ?_, hafter.tripLaid ?_⟩
  · rw [State.port_announceTrip, State.port_raiseIntrusion, State.tripImposed_eq, State.port_announceTrip_of_ne _ _ _ hne.symm,
      State.port_raiseIntrusion, State.port_tripBegin_of_ne _ _ _ _ _ hparty]
  · rw [State.port_announceTrip_of_ne _ _ _ hne, State.port_raiseIntrusion, State.tripImposed_eq, State.port_announceTrip,
      State.port_raiseIntrusion]

/-- The spread by scope, after INTRUSION of the tripping arm. -/
theorem State.spreadTo_scope :
    s.SpreadTo ((s.tripBegin x c true none).raiseIntrusion x (s.intruded x))
      ((((s.tripBegin x c true none).raiseIntrusion x (s.intruded x)).tripImposed x.other d o).announceTrip x c) x c d o := by
  have hne := Arm.other_ne x
  have hparty : x.party ≠ x.other.party := fun hp => hne (Arm.party_injective hp.symm)
  have hbefore := (State.SamePlant.refl (s.tripBegin x c true none)).raiseIntrusion x (s.intruded x)
  have hafter : (((s.tripBegin x c true none).raiseIntrusion x (s.intruded x)).tripBegin x.other d false o).SamePlant
      ((((s.tripBegin x c true none).raiseIntrusion x (s.intruded x)).tripImposed x.other d o).announceTrip x c) :=
    (((State.SamePlant.refl _).raiseIntrusion _ _).announceTrip _ _).announceTrip _ _
  refine ⟨hbefore, hafter, .then hbefore hafter ?_, hafter.tripLaid ?_⟩
  · rw [State.port_announceTrip, State.tripImposed_eq, State.port_announceTrip_of_ne _ _ _ hne.symm,
      State.port_raiseIntrusion, State.port_tripBegin_of_ne _ _ _ _ _ hparty, State.port_raiseIntrusion]
  · rw [State.port_announceTrip_of_ne _ _ _ hne, State.tripImposed_eq, State.port_announceTrip, State.port_raiseIntrusion]

end

/-! ### What the spread finds -/

/-- What a trip by contact or scope leaves of the other arm (R137, R139, R142). -/
def State.OtherTripped (s t : State) (x : Arm) (c : Cause) (tile : Option Tile → Prop) : Prop :=
  t.guardState x.other = .tripped ∧ (t.arm x.other).guard.permit = false ∧ (t.arm x.other).guard.clean = 0 ∧
  Notice.tripped c ∈ (t.port x.other.party).attention ∧ (s.QueueLaw → s.PendingCancelled t x.other) ∧
  (t.tripTiles x.other).Nodup ∧
  (∀ z, z ∈ t.tripTiles x.other ↔ s.touches x.other z = true ∧
    ((s.tile z).owner = some x.other.party ∨ (s.FreeOpen z ∧ z ∉ t.tripTiles x))) ∧
  ∃ r, (t.arm x.other).guard.trip = some r ∧ r.New c ∧ r.kind = none ∧ tile r.tile ∧
    r.Measures (s.arm x.other).evaluation (s.arm x.other).monitor.missed ∧ r.tileCount = (t.tripTiles x.other).length ∧
    (r.contested = true ↔ ∃ z, s.touches x.other z = true ∧
      (z ∈ t.tripTiles x ∨ ∃ p, (s.tile z).owner = some p ∧ p ≠ x.other.party))

namespace State.SpreadTo

variable {s v w : State} {x : Arm} {c d : Cause} {o : Option Tile}

theorem arm (h : s.SpreadTo v w x c d o) : v.arm x.other = s.arm x.other := by
  rw [h.before.arm, arm_tripBegin_of_ne _ _ _ _ (Arm.other_ne x)]

theorem touches (h : s.SpreadTo v w x c d o) (z : Tile) : v.touches x.other z = s.touches x.other z :=
  State.touches_congr (by rw [h.arm]) z

theorem tile (h : s.SpreadTo v w x c d o) (z : Tile) :
    v.tile z = if s.tripTakes x z = true then { s.tile z with owner := some x.party, hold := (s.tile z).hold + 1 }
      else s.tile z := by
  rw [h.before.tile, State.tile_tripBegin]

theorem tripTakes (h : s.SpreadTo v w x c d o) (z : Tile) :
    v.tripTakes x.other z = true ↔ s.touches x.other z = true ∧
      ((s.tile z).owner = some x.other.party ∨ (s.FreeOpen z ∧ ¬s.tripTakes x z = true)) := by
  have hne : x.party ≠ x.other.party := fun hp => Arm.other_ne x (Arm.party_injective hp.symm)
  rw [State.tripTakes_iff, h.touches, h.tile]
  split
  · rename_i htaken
    obtain ⟨-, howner | ⟨howner, -⟩⟩ := State.tripTakes_iff.mp htaken
    · simp [hne, howner, htaken]
    · simp [hne, howner, htaken]
  · rename_i hleft
    simp [hleft, State.FreeOpen]

theorem tripContested (h : s.SpreadTo v w x c d o) :
    v.tripContested x.other = true ↔ ∃ z, s.touches x.other z = true ∧
      (s.tripTakes x z = true ∨ ∃ p, (s.tile z).owner = some p ∧ p ≠ x.other.party) := by
  have hne : x.party ≠ x.other.party := fun hp => Arm.other_ne x (Arm.party_injective hp.symm)
  rw [State.tripContested_iff]
  refine exists_congr fun z => ?_
  rw [h.touches, h.tile]
  split
  · rename_i htaken
    simp [htaken, hne]
  · rename_i hleft
    simp [hleft]

theorem newRecord (h : s.SpreadTo v w x c d o) :
    (v.newRecord x.other d false o).Measures (s.arm x.other).evaluation (s.arm x.other).monitor.missed :=
  h.arm ▸ v.tripRecord_measures x.other d false o

theorem otherTripped (h : s.SpreadTo v w x c d o) {tile : Option Tile → Prop} (ho : tile o) :
    s.OtherTripped w.grantScan x d tile := by
  have hguard := h.second.guard
  have hmem (z : Tile) : z ∈ w.grantScan.tripTiles x ↔ s.tripTakes x z = true := h.first.mem_tripTiles
  refine ⟨by rw [State.guardState, hguard], by rw [hguard], by rw [hguard], h.second.tripped_grantScan,
    fun hlaw k hk => ?_, h.second.nodup_tripTiles, fun z => ?_, _, by rw [hguard], ⟨rfl, rfl, rfl⟩, rfl, ho, h.newRecord,
    h.second.tileCount, ?_⟩
  · have horder : v.QueueOrder := h.before.queueOrder (hlaw.order.tripBegin x c true none)
    refine h.second.pendingCancelled horder k ?_
    rw [h.before.slot, State.slot_tripBegin,
      State.slot_cancelPending_of_left (.inr fun hp => Arm.other_ne x (Arm.party_injective hp))]
    exact hk
  · rw [h.second.mem_tripTiles, h.tripTakes, hmem]
  · simp only [hmem]
    exact h.tripContested

end State.SpreadTo

/-- No report, no trip and no grant scan moves the control fields. -/
theorem State.controlKept_tripOwn (s : State) (x : Arm) (c : Cause) : s.ControlKept (s.tripOwn x c) := by
  obtain ⟨hheld, hpin, hmode, hepoch, hlevel, hparams, hfree, hpending⟩ := s.tripOwn_frame x c
  generalize s.tripOwn x c = t at *
  obtain ⟨held, pin, mode, epoch, level, params, tiles, closing, claims, queue, a, b, pa, pb, pc, free, pending⟩ := t
  dsimp only at *
  subst hmode hepoch hparams hlevel hheld hpin hfree hpending
  rfl

/-! ### The state before the grant scan -/

/-- What a trip has changed before its grant scan; the other arm has tripped too by `contact` or by `scope`. -/
def State.TripOutcome (s t : State) (x : Arm) (contact scope : Prop) : Prop :=
  ∃ w : State, t = w.grantScan ∧ s.TripTilesHeld w x (t.tripTiles x) ∧
    (contact ∨ scope → s.TripTilesHeld w x.other (t.tripTiles x.other)) ∧
    (∀ z, z ∉ t.tripTiles x → (contact ∨ scope → z ∉ t.tripTiles x.other) → w.tile z = s.tile z) ∧
    w.closing = s.closing ∧
    (s.QueueLaw → w.queue.Sublist s.queue ∧ ∀ n, n ∈ w.queue ↔
      n ∈ s.queue ∧ n.party ≠ x.party ∧ (n.party = x.other.party → ¬contact ∧ ¬scope)) ∧
    ∀ p k, (s.slot p k).state ≠ .pending ∨ (p ≠ x.party ∧ (p = x.other.party → ¬contact ∧ ¬scope)) → w.slot p k = s.slot p k

section
variable {s v w : State} {x : Arm} {c d : Cause} {o : Option Tile}

theorem State.SpreadTo.outcome (h : s.SpreadTo v w x c d o) {contact scope : Prop} (hboth : contact ∨ scope) :
    s.TripOutcome w.grantScan x contact scope := by
  have hparty : x.other.party ≠ x.party := fun hp => Arm.other_ne x (Arm.party_injective hp)
  have htile (z : Tile) : w.tile z = if v.tripTakes x.other z = true then
      { v.tile z with owner := some x.other.party, hold := (v.tile z).hold + 1 } else v.tile z := by
    rw [h.after.tile, State.tile_tripBegin]
  have hleft {z : Tile} (hz : ¬s.tripTakes x z = true) : v.tile z = s.tile z := by rw [h.tile, if_neg hz]
  refine ⟨w, rfl, fun z hz => h.first.tile z (h.first.mem_tripTiles.mp hz), fun _ z hz => ?_, fun z hx hy => ?_, ?_,
    fun hlaw => ?_, fun p k hk => ?_⟩
  · have htakes := h.second.mem_tripTiles.mp hz
    have hfree : ¬s.tripTakes x z = true := fun hx => by
      obtain ⟨-, howner | ⟨-, hnot⟩⟩ := (h.tripTakes z).mp htakes
      · obtain ⟨-, hfirst | ⟨hfirst, -⟩⟩ := State.tripTakes_iff.mp hx
        · exact hparty (Option.some.inj (howner.symm.trans hfirst))
        · simp [howner] at hfirst
      · exact hnot hx
    rw [htile, if_pos htakes, hleft hfree]
  · rw [htile, if_neg fun htakes => hy hboth (h.second.mem_tripTiles.mpr htakes),
      hleft fun htakes => hx (h.first.mem_tripTiles.mpr htakes)]
  · rw [h.after.closing, State.tripBegin_frame _ _ _ _ _ |>.2.2.2.2.2.2.1, h.before.closing]
    simp
  · have hqueue : w.queue = (s.queue.filter fun n => n.party ≠ x.party).filter fun n => n.party ≠ x.other.party := by
      rw [h.after.queue, (h.before.queueOrder (hlaw.order.tripBegin x c true none)).queue_tripBegin, h.before.queue,
        hlaw.order.queue_tripBegin]
    rw [hqueue]
    refine ⟨List.filter_sublist.trans List.filter_sublist, fun n => ?_⟩
    have hnot : ¬(¬contact ∧ ¬scope) := fun h => hboth.elim h.1 h.2
    simpa [hnot] using fun _ => and_comm
  · rw [h.after.slot, State.slot_tripBegin, State.slot_cancelPending_of_left, h.before.slot, State.slot_tripBegin,
      State.slot_cancelPending_of_left]
    · exact hk.imp_right fun hp => hp.1
    · have hslot : v.slot p k = s.slot p k := by
        rw [h.before.slot, State.slot_tripBegin, State.slot_cancelPending_of_left (hk.imp_right fun hp => hp.1)]
      rw [hslot]
      exact hk.imp_right fun hp heq => hboth.elim (hp.2 heq).1 (hp.2 heq).2

/-- Steps 1 to 3 of one arm alone. -/
theorem State.SamePlant.outcome (h : (s.tripBegin x c true none).SamePlant w) (hlaid : s.TripLaid w x c true none)
    {contact scope : Prop} (hcontact : ¬contact) (hscope : ¬scope) : s.TripOutcome w.grantScan x contact scope := by
  refine ⟨w, rfl, fun z hz => hlaid.tile z (hlaid.mem_tripTiles.mp hz), fun hb => (hb.elim hcontact hscope).elim, fun z hx _ => ?_, ?_,
    fun hlaw => ?_, fun p k hk => ?_⟩
  · rw [h.tile, State.tile_tripBegin, if_neg fun htakes => hx (hlaid.mem_tripTiles.mpr htakes)]
  · rw [h.closing]; simp
  · rw [h.queue, hlaw.order.queue_tripBegin]
    exact ⟨List.filter_sublist, fun n => by simp [hcontact, hscope]⟩
  · rw [h.slot, State.slot_tripBegin, State.slot_cancelPending_of_left (hk.imp_right fun hp => hp.1)]

end

/-! ### INTRUSION (R138) -/

theorem State.intruded_eq_some {s : State} {x : Arm} {z : Tile} :
    s.intruded x = some z ↔ IsFirst (s.IntrudedAt x) z :=
  firstTile_eq_some_iff.trans (isFirst_congr (fun z => by simp [State.IntrudedAt]) z)

theorem State.intruded_eq_none {s : State} {x : Arm} : s.intruded x = none ↔ ¬∃ z, s.IntrudedAt x z :=
  firstTile_eq_none_iff.trans (by simp [State.IntrudedAt])

section
variable {s : State} {x : Arm} {c : Cause} {n : Notice}

theorem State.port_announceTrip_cell (s : State) (x : Arm) (c : Cause) :
    (s.announceTrip x c).port .C = (s.port .C).raise (.armTripped x) := by
  rw [State.announceTrip, State.port_raise, State.port_raise_of_ne _ _ (Arm.party_ne_C x).symm]

theorem Port.mem_raise_of_code {q : Port} {m : Notice} (h : n.code ≠ m.code) :
    n ∈ (q.raise m).attention ↔ n ∈ q.attention :=
  ⟨fun hn => (mem_of_mem_insertNotice hn).resolve_left fun heq => h (congrArg Notice.code heq),
    fun hn => mem_insertNotice_of_ne hn h⟩

theorem State.mem_intrusion_announceTrip {y : Arm} {z : Tile} :
    Notice.intrusion y z ∈ ((s.announceTrip x c).port .C).attention ↔ Notice.intrusion y z ∈ (s.port .C).attention := by
  rw [State.port_announceTrip_cell]
  exact Port.mem_raise_of_code (by simp [Notice.code])

theorem State.port_tripBegin_cell (own : Bool) (o : Option Tile) : (s.tripBegin x c own o).port .C = s.port .C :=
  State.port_tripBegin_of_ne _ _ _ _ _ (Arm.party_ne_C x).symm

/-- INTRUSION of an arm as it is raised. -/
theorem State.mem_raiseIntrusion {z : Tile} {o : Option Tile} (h : o = some z) :
    Notice.intrusion x z ∈ ((s.raiseIntrusion x o).port .C).attention := by
  subst h; exact State.mem_attention_raise ..

@[simp] theorem State.intruded_raiseIntrusion (s : State) (x y : Arm) (o : Option Tile) :
    (s.raiseIntrusion x o).intruded y = s.intruded y := by
  have htouches (z : Tile) : (s.raiseIntrusion x o).touches y z = s.touches y z := State.touches_congr (by simp) z
  simp only [State.intruded, htouches, tile_raiseIntrusion]

theorem State.raiseIntrusion_none {o : Option Tile} (h : o = none) : s.raiseIntrusion x o = s := by subst h; rfl

end

/-- What a trip leaves of the arm that trips with a cause of its own (R133, R135, R142). -/
theorem State.TripLaid.ownTrip {s w : State} {x : Arm} {c : Cause} (h : s.TripLaid w x c true none) :
    w.grantScan.guardState x = .tripped ∧
    (∀ z, z ∈ w.grantScan.tripTiles x ↔
      s.touches x z = true ∧ ((s.tile z).owner = some x.party ∨ s.FreeOpen z)) ∧
    ∃ r, (w.grantScan.arm x).guard.trip = some r ∧ r.New c ∧
      r.kind = (s.arm x).evaluation.bind Evaluation.kind ∧ r.tile = (s.arm x).evaluation.bind Evaluation.tile ∧
      r.Measures (s.arm x).evaluation (s.arm x).monitor.missed ∧ r.tileCount = (w.grantScan.tripTiles x).length ∧
      (r.contested = true ↔ ∃ z p, s.touches x z = true ∧ (s.tile z).owner = some p ∧ p ≠ x.party) := by
  have hguard := h.guard
  refine ⟨by rw [State.guardState, hguard], fun z => h.mem_tripTiles.trans State.tripTakes_iff,
    s.newRecord x c true none, by rw [hguard], ⟨rfl, rfl, rfl⟩, rfl, rfl, s.tripRecord_measures x c true none, h.tileCount, State.tripContested_iff⟩

/-! ### The three ways of a trip -/

/-- A contact trips the other arm (R137). -/
def State.Contacts (s : State) (x : Arm) : Prop := s.trippable x.other = true ∧ (s.FarContact x ∨ s.ForeignContact x)

/-- The scope trips the other arm (R139). -/
def State.Spreads (s : State) (x : Arm) : Prop :=
  s.trippable x.other = true ∧ ¬s.FarContact x ∧ ¬s.ForeignContact x ∧ s.params.tripScope = .paired

/-- The state that a trip leaves before its grant scan: of the arm alone, with a contact, or with the scope. -/
inductive State.TripWay (s : State) (x : Arm) (c : Cause) : State → Prop
  | alone (hcontact : ¬s.Contacts x) (hscope : ¬s.Spreads x) :
      s.TripWay x c (((s.tripBegin x c true none).raiseIntrusion x (s.intruded x)).announceTrip x c)
  | contact (hcontact : s.Contacts x) (d : Cause) (o : Option Tile) (h : s.contact x = some (d, o)) :
      s.TripWay x c ((((s.tripBegin x c true none).tripImposed x.other d o).raiseIntrusion x
        (s.intruded x)).announceTrip x c)
  | scope (hscope : s.Spreads x) :
      s.TripWay x c ((((s.tripBegin x c true none).raiseIntrusion x (s.intruded x)).tripImposed x.other c
        none).announceTrip x c)

theorem State.exists_tripWay (s : State) (x : Arm) (c : Cause) : ∃ w, s.TripWay x c w ∧ s.tripOwn x c = w.grantScan := by
  cases hy : s.trippable x.other with
  | false =>
    exact ⟨_, .alone (fun h => by simp [State.Contacts, hy] at h) (fun h => by simp [State.Spreads, hy] at h),
      State.tripOwn_alone (.inl hy)⟩
  | true =>
    obtain ⟨hfar, h⟩ | ⟨-, hforeign, o, h, -⟩ | ⟨hfar, hforeign, h⟩ := s.contact_cases x
    · exact ⟨_, .contact ⟨hy, .inl hfar⟩ _ _ h, State.tripOwn_contact hy h⟩
    · exact ⟨_, .contact ⟨hy, .inr hforeign⟩ _ _ h, State.tripOwn_contact hy h⟩
    · by_cases hscope : s.params.tripScope = .paired
      · exact ⟨_, .scope ⟨hy, hfar, hforeign, hscope⟩, State.tripOwn_scope hy h hscope⟩
      · exact ⟨_, .alone (fun hc => hc.2.elim hfar hforeign) (fun hs => hscope hs.2.2.2),
          State.tripOwn_alone (.inr ⟨h, hscope⟩)⟩

namespace State.TripWay

variable {s w : State} {x : Arm} {c : Cause}

theorem laid (h : s.TripWay x c w) : s.TripLaid w x c true none := by
  cases h with
  | alone => exact s.tripLaid_alone x c
  | contact _ d o => exact (s.spreadTo_contact x c d o).first
  | scope => exact (s.spreadTo_scope x c c none).first

theorem armTripped (h : s.TripWay x c w) : Notice.armTripped x ∈ (w.grantScan.port .C).attention := by
  rw [State.mem_attention_grantScan (by simp [Notice.code])]
  cases h <;> exact State.mem_attention_raise ..

theorem outcome (h : s.TripWay x c w) : s.TripOutcome w.grantScan x (s.Contacts x) (s.Spreads x) := by
  cases h with
  | alone hcontact hscope =>
    exact State.SamePlant.outcome (((State.SamePlant.refl _).raiseIntrusion _ _).announceTrip _ _) (s.tripLaid_alone x c)
      hcontact hscope
  | contact hcontact d o => exact (s.spreadTo_contact x c d o).outcome (.inl hcontact)
  | scope hscope => exact (s.spreadTo_scope x c c none).outcome (.inr hscope)

theorem farContact (h : s.TripWay x c w) (hy : s.trippable x.other = true) (hfar : s.FarContact x) :
    s.OtherTripped w.grantScan x .farContact fun o => o = none := by
  cases h with
  | alone hcontact => exact absurd ⟨hy, .inl hfar⟩ hcontact
  | contact _ d o h =>
    obtain ⟨-, hcontact⟩ | ⟨hnot, -⟩ | ⟨hnot, -⟩ := s.contact_cases x
    · obtain ⟨rfl, rfl⟩ : d = .farContact ∧ o = none := by simpa using h.symm.trans hcontact
      exact (s.spreadTo_contact x c _ _).otherTripped rfl
    · exact absurd hfar hnot
    · exact absurd hfar hnot
  | scope hscope => exact absurd hfar hscope.2.1

theorem foreignContact (h : s.TripWay x c w) (hy : s.trippable x.other = true) (hfar : ¬s.FarContact x)
    (hforeign : s.ForeignContact x) : s.OtherTripped w.grantScan x .foreignContact fun o =>
      ∀ z, IsFirst (fun z => s.touches x z = true ∧ (s.tile z).owner = some x.other.party) z → o = some z := by
  cases h with
  | alone hcontact => exact absurd ⟨hy, .inr hforeign⟩ hcontact
  | contact _ d o h =>
    obtain ⟨hnot, -⟩ | ⟨-, -, u, hcontact, hfirst⟩ | ⟨-, hnot, -⟩ := s.contact_cases x
    · exact absurd hnot hfar
    · obtain ⟨rfl, rfl⟩ : d = .foreignContact ∧ o = u := by simpa using h.symm.trans hcontact
      exact (s.spreadTo_contact x c _ _).otherTripped hfirst
    · exact absurd hforeign hnot
  | scope hscope => exact absurd hforeign hscope.2.2.1

theorem scopeTrip (h : s.TripWay x c w) (hscope : s.Spreads x) :
    s.OtherTripped w.grantScan x c fun o => o = none := by
  cases h with
  | alone _ hnot => exact absurd hscope hnot
  | contact hcontact => exact (hcontact.2.elim hscope.2.1 hscope.2.2.1).elim
  | scope => exact (s.spreadTo_scope x c c none).otherTripped rfl

theorem other_left (h : s.TripWay x c w) (hcontact : ¬s.Contacts x) (hscope : ¬s.Spreads x) :
    w.grantScan.arm x.other = s.arm x.other ∧ w.grantScan.tripTiles x.other = s.tripTiles x.other := by
  rw [arm_grantScan, State.tripTiles_grantScan]
  cases h with
  | alone =>
    simp [arm_tripBegin_of_ne _ _ _ _ (Arm.other_ne x), State.tripTiles_tripBegin_of_ne (Arm.other_ne x)]
  | contact h => exact absurd h hcontact
  | scope h => exact absurd h hscope

/-- INTRUSION of the tripping arm, unless the scope trips the other arm over a tile of C. -/
theorem intrusion (h : s.TripWay x c w) {z : Tile} (hz : s.intruded x = some z)
    (hlast : ¬s.Spreads x ∨ s.intruded x.other = none) : Notice.intrusion x z ∈ (w.grantScan.port .C).attention := by
  rw [State.mem_attention_grantScan (by simp [Notice.code])]
  cases h with
  | alone => exact State.mem_intrusion_announceTrip.mpr (State.mem_raiseIntrusion hz)
  | contact => exact State.mem_intrusion_announceTrip.mpr (State.mem_raiseIntrusion hz)
  | scope hscope =>
    have hnone : ((s.tripBegin x c true none).raiseIntrusion x (s.intruded x)).intruded x.other = none := by
      rw [State.intruded_raiseIntrusion, State.intruded_tripBegin]
      exact hlast.resolve_left fun hnot => hnot hscope
    rw [State.mem_intrusion_announceTrip, State.tripImposed_eq, State.raiseIntrusion_none hnone,
      State.mem_intrusion_announceTrip, State.port_tripBegin_cell]
    exact State.mem_raiseIntrusion hz

/-- INTRUSION of the other arm, unless the tripping arm is over a tile of C after a contact. -/
theorem intrusion_other (h : s.TripWay x c w) {z : Tile} (hz : s.intruded x.other = some z)
    (hlast : s.Spreads x ∨ s.Contacts x ∧ s.intruded x = none) :
    Notice.intrusion x.other z ∈ (w.grantScan.port .C).attention := by
  rw [State.mem_attention_grantScan (by simp [Notice.code]), ]
  cases h with
  | alone hcontact hscope => exact absurd hlast fun h => h.elim hscope fun h => hcontact h.1
  | contact hcontact =>
    have hnone := (hlast.resolve_left fun hs => hcontact.2.elim hs.2.1 hs.2.2.1).2
    rw [State.mem_intrusion_announceTrip, State.raiseIntrusion_none hnone, State.tripImposed_eq,
      State.mem_intrusion_announceTrip]
    exact State.mem_raiseIntrusion ((State.intruded_tripBegin _).trans hz)
  | scope hscope =>
    rw [State.mem_intrusion_announceTrip, State.tripImposed_eq, State.mem_intrusion_announceTrip]
    exact State.mem_raiseIntrusion ((State.intruded_raiseIntrusion _ _ _ _).trans ((State.intruded_tripBegin _).trans hz))

/-- No INTRUSION where no arm that trips is over a tile of C. -/
theorem intrusion_none (h : s.TripWay x c w) (hx : s.intruded x = none)
    (hy : ¬s.Contacts x ∧ ¬s.Spreads x ∨ s.intruded x.other = none) (y : Arm) (z : Tile) :
    Notice.intrusion y z ∈ (w.grantScan.port .C).attention ↔ Notice.intrusion y z ∈ (s.port .C).attention := by
  rw [State.mem_attention_grantScan (by simp [Notice.code])]
  cases h with
  | alone => rw [State.mem_intrusion_announceTrip, State.raiseIntrusion_none hx, State.port_tripBegin_cell]
  | contact hcontact =>
    have hnone : (s.tripBegin x c true none).intruded x.other = none :=
      (State.intruded_tripBegin _).trans (hy.resolve_left fun h => h.1 hcontact)
    rw [State.mem_intrusion_announceTrip, State.raiseIntrusion_none hx, State.tripImposed_eq,
      State.raiseIntrusion_none hnone, State.mem_intrusion_announceTrip, State.port_tripBegin_cell,
      State.port_tripBegin_cell]
  | scope hscope =>
    have hnone : (s.tripBegin x c true none).intruded x.other = none :=
      (State.intruded_tripBegin _).trans (hy.resolve_left fun h => h.2 hscope)
    rw [State.raiseIntrusion_none hx, State.mem_intrusion_announceTrip, State.tripImposed_eq,
      State.raiseIntrusion_none hnone, State.mem_intrusion_announceTrip, State.port_tripBegin_cell,
      State.port_tripBegin_cell]

end State.TripWay

/-- Settles O34, by the three ways in which a trip spreads: not at all, by contact, by scope. -/
theorem tripSpread : Obligations.TripSpread := by
  unfold Obligations.TripSpread
  intro s x cause
  obtain ⟨w, hway, ht⟩ := s.exists_tripWay x cause
  have hcontrol := s.controlKept_tripOwn x cause
  rw [ht] at hcontrol ⊢
  intro y t far foreign contacts spreads trips
  have hlaid := hway.laid
  have hnone {z : Arm} : s.intruded z = none ↔ ¬∃ t, s.IntrudedAt z t := State.intruded_eq_none
  obtain ⟨htripped, hclaim, hrecord⟩ := hlaid.ownTrip
  refine ⟨htripped, hway.armTripped, hcontrol, hlaid.tripped_grantScan, fun hlaw => hlaid.pendingCancelled hlaw.order,
    hclaim, hlaid.nodup_tripTiles, hrecord, hway.farContact, hway.foreignContact, hway.scopeTrip, fun hleft => ?_,
    fun z hz hlast => hway.intrusion (State.intruded_eq_some.mpr hz) (hlast.imp_right hnone.mpr),
    fun z hz hlast => hway.intrusion_other (State.intruded_eq_some.mpr hz) (hlast.imp_right fun h => ⟨h.1, hnone.mpr h.2⟩),
    fun hx hy z n hn => ?_, hway.outcome⟩
  · refine hway.other_left (fun hc => ?_) fun hs => ?_
    · exact hleft.elim (fun hy => absurd hc.1 (by simp [show s.trippable x.other = false from hy]))
        fun h => hc.2.elim h.1 h.2.1
    · exact hleft.elim (fun hy => absurd hs.1 (by simp [show s.trippable x.other = false from hy]))
        fun h => absurd (h.2.2.symm.trans hs.2.2.2) (by simp)
  · obtain rfl | rfl := hn
    · exact hway.intrusion_none (hnone.mpr hx) (hy.imp_right hnone.mpr) x z
    · exact hway.intrusion_none (hnone.mpr hx) (hy.imp_right hnone.mpr) x.other z

end Sys2Proof.Machine
end

section
/-! SUPPORT. Trips at reports and expiries, and the statements on them. -/

namespace Sys2Proof.Machine

open Sys2Proof

/-! ### A trip with an own cause, as its callers see it -/

theorem State.guard_tripOwn (s : State) (x : Arm) (c : Cause) :
    ((s.tripOwn x c).arm x).guard =
      ⟨.tripped, false, 0, (s.arm x).guard.joined, some (s.newRecord x c true none)⟩ := by
  rw [arm_tripOwn, State.arm_tripBegin]

theorem State.tripped_tripOwn (s : State) (x : Arm) (c : Cause) :
    Notice.tripped c ∈ ((s.tripOwn x c).port x.party).attention := by
  obtain ⟨w, hway, ht⟩ := s.exists_tripWay x c
  exact ht ▸ hway.laid.tripped_grantScan

/-! ### An expiry of the report-period timer (R50, R51) -/

/-- The state of an expiry with a given evaluation record and Guard Controller: the missed count has risen or holds, and the
timer runs anew. -/
def State.afterExpiry (s : State) (x : Arm) (o : Option Evaluation) (g : Guard) : State :=
  s.setArm x
    ⟨{ (s.arm x).monitor with
        missed := raisedMissed (s.arm x).monitor.missed (s.params.arm x).staleLimit,
        timer := some (s.params.arm x).reportPeriod }, o, g⟩

/-- The Guard Controller of an expiry: in ARMING the clean count becomes 0. -/
def State.guardAtExpiry (s : State) (x : Arm) : Guard :=
  if s.guardState x = .arming then { (s.arm x).guard with clean := 0 } else (s.arm x).guard

section
variable {s : State} {x : Arm}

theorem State.expiryInArming_eq :
    (s.setMonitor x { (s.arm x).monitor with
        missed := raisedMissed (s.arm x).monitor.missed (s.params.arm x).staleLimit,
        timer := some (s.params.arm x).reportPeriod }).expiryInArming x =
      s.afterExpiry x (s.arm x).evaluation (s.guardAtExpiry x) := by
  unfold State.expiryInArming State.afterExpiry State.guardAtExpiry
  by_cases h : s.guardState x = .arming
  · rw [if_pos (by simpa [State.guardState] using h), if_pos h]
    simp [State.setMonitor, State.setGuard]
  · rw [if_neg (by simpa [State.guardState] using h), if_neg h]
    rfl

theorem State.arm_afterExpiry (o : Option Evaluation) (g : Guard) :
    ((s.afterExpiry x o g).arm x) = ⟨{ (s.arm x).monitor with
        missed := raisedMissed (s.arm x).monitor.missed (s.params.arm x).staleLimit,
        timer := some (s.params.arm x).reportPeriod }, o, g⟩ := State.arm_setArm ..

/-- What follows an expiry: the evaluation of the last report, the stale evaluation, or nothing. -/
theorem State.periodExpiry_eq :
    s.periodExpiry x =
      if raisedMissed (s.arm x).monitor.missed (s.params.arm x).staleLimit ≤ (s.params.arm x).staleLimit then
        (s.afterExpiry x (s.arm x).evaluation (s.guardAtExpiry x)).evaluateLast x
      else if (s.arm x).monitor.missed = (s.params.arm x).staleLimit then
        (s.afterExpiry x (s.arm x).evaluation (s.guardAtExpiry x)).staleExpiry x
      else s.afterExpiry x (s.arm x).evaluation (s.guardAtExpiry x) := by
  unfold State.periodExpiry
  dsimp only
  rw [State.expiryInArming_eq]

theorem State.guardState_afterExpiry {o : Option Evaluation} :
    (s.afterExpiry x o (s.guardAtExpiry x)).guardState x = s.guardState x := by
  rw [State.guardState, State.arm_afterExpiry]
  unfold State.guardAtExpiry State.guardState
  split <;> rfl

theorem State.evaluate_afterExpiry (rep : Report) (n : Nat) :
    (s.afterExpiry x (s.arm x).evaluation (s.guardAtExpiry x)).evaluate x rep n = s.evaluate x rep n :=
  State.evaluate_congr (by simp [State.afterExpiry]) (by funext z; simp [State.afterExpiry])
    (by rw [State.arm_afterExpiry]) rep n

theorem State.setEvaluation_afterExpiry (o p : Option Evaluation) (g : Guard) :
    (s.afterExpiry x o g).setEvaluation x p = s.afterExpiry x p g := by
  simp [State.setEvaluation, State.afterExpiry]

/-- The expiry that makes a LIVE arm stale. -/
def State.StaleNow (s : State) (x : Arm) : Prop :=
  s.guardState x = .live ∧ (s.arm x).monitor.missed = (s.params.arm x).staleLimit

/-- No evaluation follows an expiry of an arm without a last report, or above STALE_LIMIT. -/
theorem State.periodExpiry_quiet (hstale : ¬s.StaleNow x)
    (h : (s.arm x).monitor.lastReport = none ∨ (∃ rep, (s.arm x).monitor.lastReport = some rep ∧
        s.evaluate x rep (raisedMissed (s.arm x).monitor.missed (s.params.arm x).staleLimit) = none) ∨
      (s.params.arm x).staleLimit < raisedMissed (s.arm x).monitor.missed (s.params.arm x).staleLimit) :
    s.periodExpiry x = s.afterExpiry x (s.arm x).evaluation (s.guardAtExpiry x) := by
  have hreport : ((s.afterExpiry x (s.arm x).evaluation (s.guardAtExpiry x)).arm x).monitor.lastReport =
      (s.arm x).monitor.lastReport := by rw [State.arm_afterExpiry]
  have hmissed : ((s.afterExpiry x (s.arm x).evaluation (s.guardAtExpiry x)).arm x).monitor.missed =
      raisedMissed (s.arm x).monitor.missed (s.params.arm x).staleLimit := by rw [State.arm_afterExpiry]
  rw [State.periodExpiry_eq]
  split_ifs with hle hat
  · unfold State.evaluateLast
    rw [hreport, hmissed]
    obtain hnone | ⟨rep, hrep, hnone⟩ | hlt := h
    · rw [hnone]
    · rw [hrep]
      exact (State.evaluateReport_of_none ((State.evaluate_afterExpiry rep _).trans hnone) _).trans (if_neg (by simp))
    · omega
  · exact if_neg fun hlive => hstale ⟨State.guardState_afterExpiry.symm.trans hlive, hat⟩
  · rfl

theorem State.StaleNow.raised (h : s.StaleNow x) :
    raisedMissed (s.arm x).monitor.missed (s.params.arm x).staleLimit = (s.params.arm x).staleLimit + 1 := by
  rw [raisedMissed, h.2, if_neg (Nat.lt_irrefl _)]

/-- A stale expiry without an evaluation trips the arm on its record as it stands. -/
theorem State.periodExpiry_stale_bare (hstale : s.StaleNow x)
    (h : (s.arm x).monitor.lastReport = none ∨ ∃ rep, (s.arm x).monitor.lastReport = some rep ∧
        s.evaluate x rep (raisedMissed (s.arm x).monitor.missed (s.params.arm x).staleLimit) = none) :
    s.periodExpiry x = (s.afterExpiry x (s.arm x).evaluation (s.arm x).guard).tripOwn x .stale := by
  have hguard : s.guardAtExpiry x = (s.arm x).guard := if_neg (by simp [hstale.1])
  have hraised := hstale.raised
  rw [State.periodExpiry_eq, if_neg (by omega), if_pos hstale.2]
  unfold State.staleExpiry
  rw [if_pos (State.guardState_afterExpiry.trans hstale.1), State.arm_afterExpiry, hguard]
  dsimp only
  obtain hnone | ⟨rep, hrep, hnone⟩ := h
  · rw [hnone]
  · rw [hrep]
    refine (State.evaluateReport_of_none (Eq.trans ?_ hnone) _).trans (if_pos rfl)
    rw [← hguard, State.evaluate_afterExpiry]

/-- The start of the evaluation that an expiry brings. -/
def State.expiryStart (s : State) (x : Arm) : Start :=
  if raisedMissed (s.arm x).monitor.missed (s.params.arm x).staleLimit ≤ (s.params.arm x).staleLimit then .expiry
  else .stale

theorem State.expiryStart_ne_fresh : s.expiryStart x ≠ .fresh := by
  unfold State.expiryStart
  split <;> simp

theorem State.expiryStart_ne_stale
    (h : raisedMissed (s.arm x).monitor.missed (s.params.arm x).staleLimit ≤ (s.params.arm x).staleLimit) :
    s.expiryStart x ≠ .stale := by
  rw [State.expiryStart, if_pos h]; simp

theorem State.StaleNow.start (h : s.StaleNow x) : s.expiryStart x = .stale := by
  have hraised := h.raised
  exact if_neg (by omega)

/-- An expiry with an evaluation: the guard acts on it, and the drain test follows. -/
theorem State.periodExpiry_evaluates {rep : Report} {e : Evaluation} (hrep : (s.arm x).monitor.lastReport = some rep)
    (he : s.evaluate x rep (raisedMissed (s.arm x).monitor.missed (s.params.arm x).staleLimit) = some e)
    (h : raisedMissed (s.arm x).monitor.missed (s.params.arm x).staleLimit ≤ (s.params.arm x).staleLimit ∨ s.StaleNow x) :
    s.periodExpiry x =
      ((s.afterExpiry x (some e) (s.guardAtExpiry x)).guardActs x e (s.expiryStart x)).handOff x e := by
  have hreport : ((s.afterExpiry x (s.arm x).evaluation (s.guardAtExpiry x)).arm x).monitor.lastReport = some rep := by
    rw [State.arm_afterExpiry]; exact hrep
  have hmissed : ((s.afterExpiry x (s.arm x).evaluation (s.guardAtExpiry x)).arm x).monitor.missed =
      raisedMissed (s.arm x).monitor.missed (s.params.arm x).staleLimit := by rw [State.arm_afterExpiry]
  have hevaluates (st : Start) := State.evaluateReport_of_evaluate ((State.evaluate_afterExpiry rep _).trans he) st
  simp only [State.setEvaluation_afterExpiry] at hevaluates
  rw [State.periodExpiry_eq, State.expiryStart]
  split_ifs with hle hat
  · unfold State.evaluateLast
    rw [hreport, hmissed]
    exact hevaluates .expiry
  · unfold State.staleExpiry
    rw [if_pos (State.guardState_afterExpiry.trans (h.resolve_left hle).1), hreport, hmissed]
    exact hevaluates .stale
  · exact absurd (h.resolve_left hle).2 hat

end

/-- A drain test that follows leaves the guard and the trip claims. -/
theorem State.guard_handOff {s : State} {x : Arm} {e : Evaluation} : ((s.handOff x e).arm x).guard = (s.arm x).guard := by
  rw [State.arm_handOff]

/-- An expiry of a running timer is the period expiry. -/
theorem exec_reportPeriodExpiry {s : State} {x : Arm} {left : Nat} (h : (s.arm x).monitor.timer = some left) :
    exec (.reportPeriodExpiry x) s = .next (s.periodExpiry x) := by
  simp [exec, execReportPeriodExpiry, h]

theorem State.monitor_periodExpiry (s : State) (x : Arm) :
    ((s.periodExpiry x).arm x).monitor = { (s.arm x).monitor with
        missed := raisedMissed (s.arm x).monitor.missed (s.params.arm x).staleLimit,
        timer := some (s.params.arm x).reportPeriod } ∧
    ((s.periodExpiry x).arm x.other).monitor = (s.arm x.other).monitor ∧
    ((s.periodExpiry x).arm x.other).evaluation = (s.arm x.other).evaluation := by
  have harm := State.arm_afterExpiry (s := s) (x := x) (s.arm x).evaluation (s.guardAtExpiry x)
  have hother : (s.afterExpiry x (s.arm x).evaluation (s.guardAtExpiry x)).arm x.other = s.arm x.other :=
    State.arm_setArm_of_ne _ _ (Arm.other_ne x)
  rw [State.periodExpiry_eq]
  generalize s.afterExpiry x (s.arm x).evaluation (s.guardAtExpiry x) = u at harm hother
  have hparts (v : State) (h : ∀ y, (v.arm y).monitor = (u.arm y).monitor ∧
      (y ≠ x → (v.arm y).evaluation = (u.arm y).evaluation)) :
      (v.arm x).monitor = { (s.arm x).monitor with
        missed := raisedMissed (s.arm x).monitor.missed (s.params.arm x).staleLimit,
        timer := some (s.params.arm x).reportPeriod } ∧
      (v.arm x.other).monitor = (s.arm x.other).monitor ∧ (v.arm x.other).evaluation = (s.arm x.other).evaluation := by
    rw [(h x).1, (h x.other).1, (h x.other).2 (Arm.other_ne x), harm, hother]
    exact ⟨rfl, rfl, rfl⟩
  refine hparts _ fun y => ?_
  split_ifs
  · unfold State.evaluateLast
    split
    · exact ⟨rfl, fun _ => rfl⟩
    · exact parts_evaluateReport ..
  · unfold State.staleExpiry
    split
    · split
      · exact ⟨(parts_tripOwn u x .stale y).1, fun _ => (parts_tripOwn u x .stale y).2⟩
      · exact parts_evaluateReport ..
    · exact ⟨rfl, fun _ => rfl⟩
  · exact ⟨rfl, fun _ => rfl⟩

/-- The trip record of a trip of the arm after an expiry. -/
theorem State.guard_tripOwn_afterExpiry (s : State) (x : Arm) (o : Option Evaluation) (c : Cause) :
    (((s.afterExpiry x o (s.arm x).guard).tripOwn x c).arm x).guard.state = .tripped ∧
    (((s.afterExpiry x o (s.arm x).guard).tripOwn x c).arm x).guard.permit = false ∧
    (((s.afterExpiry x o (s.arm x).guard).tripOwn x c).arm x).guard.clean = 0 ∧
    ∃ r, (((s.afterExpiry x o (s.arm x).guard).tripOwn x c).arm x).guard.trip = some r ∧ r.New c ∧
      r.missed = raisedMissed (s.arm x).monitor.missed (s.params.arm x).staleLimit := by
  rw [State.guard_tripOwn]
  refine ⟨rfl, rfl, rfl, _, rfl, ⟨rfl, rfl, rfl⟩, ?_⟩
  simp only [State.newRecord, State.tripRecord, State.arm_afterExpiry]

/-- Settles O24, by what the expiry evaluates and by the guard state of the arm. -/
theorem reportPeriodExpiry : Obligations.ReportPeriodExpiry := by
  unfold Obligations.ReportPeriodExpiry
  intro x s left htimer limit m g missed after stale
  have hquiet := State.periodExpiry_quiet (s := s) (x := x)
  obtain ⟨hmonitor, hother, hotherEvaluation⟩ := s.monitor_periodExpiry x
  have hevaluates {rep : Report} {e : Evaluation} := State.periodExpiry_evaluates (s := s) (x := x) (rep := rep) (e := e)
  have hmoves : s.Moves (s.periodExpiry x) := (State.Moves.refl s).periodExpiry x (by rw [htimer]; rfl)
  refine ⟨s.periodExpiry x, exec_reportPeriodExpiry htimer, hmonitor, ?_, ?_, ?_, ?_, ?_, hother, hotherEvaluation, hmoves.controlKept⟩
  · intro harming
    have hstale : ¬s.StaleNow x := fun h => by simp [State.StaleNow, harming] at h
    have hguard : s.guardAtExpiry x = { g with clean := 0 } := if_pos harming
    by_cases hquiets : m.lastReport = none ∨ (∃ rep, m.lastReport = some rep ∧ s.evaluate x rep missed = none) ∨ limit < missed
    · rw [hquiet hstale hquiets, State.arm_afterExpiry, hguard]
    · simp only [not_or, not_lt] at hquiets
      obtain ⟨hsome, heval, hle⟩ := hquiets
      obtain ⟨rep, hrep⟩ := Option.ne_none_iff_exists'.mp hsome
      obtain ⟨e, he⟩ := Option.ne_none_iff_exists'.mp fun hnone => heval ⟨rep, hrep, hnone⟩
      rw [hevaluates hrep he (.inl hle), State.guard_handOff,
        State.guardActs_arming (State.guardState_afterExpiry.trans harming), if_neg State.expiryStart_ne_fresh,
        State.arm_afterExpiry, hguard]
  · intro rep hrep hle hprobes
    obtain ⟨q, more, hq⟩ := List.exists_cons_of_ne_nil hprobes
    have he := State.evaluate_cons (s := s) (x := x) hq missed
    rw [hevaluates hrep he (.inl hle), he, State.arm_handOff, (parts_guardActs _ _ _ _ _).2, State.arm_afterExpiry]
  · rintro (⟨hnone, hstale⟩ | ⟨hlt, hstale⟩)
    · exact hquiet hstale (.inl hnone)
    · exact hquiet hstale (.inr (.inr hlt))
  · intro hstale
    have hstale' : s.StaleNow x := hstale
    have hguard : s.guardAtExpiry x = g := if_neg (by simp [hstale.1])
    obtain ⟨o, htrip, hnotice⟩ : ∃ o, ((s.periodExpiry x).arm x).guard =
        (((s.afterExpiry x o g).tripOwn x .stale).arm x).guard ∧
        Notice.tripped .stale ∈ ((s.periodExpiry x).port x.party).attention := by
      by_cases hbare : m.lastReport = none ∨ ∃ rep, m.lastReport = some rep ∧ s.evaluate x rep missed = none
      · rw [State.periodExpiry_stale_bare hstale' hbare]
        exact ⟨_, rfl, State.tripped_tripOwn ..⟩
      · simp only [not_or] at hbare
        obtain ⟨rep, hrep⟩ := Option.ne_none_iff_exists'.mp hbare.1
        obtain ⟨e, he⟩ := Option.ne_none_iff_exists'.mp fun hnone => hbare.2 ⟨rep, hrep, hnone⟩
        rw [hevaluates hrep he (.inr hstale'),
          State.guardActs_live_stale (State.guardState_afterExpiry.trans hstale.1) hstale'.start, hguard,
          State.guard_handOff]
        exact ⟨some e, rfl, State.mem_attention_handOff (by simp [Notice.code]) (State.tripped_tripOwn ..)⟩
    obtain ⟨hstate, hpermit, hclean, r, hr, hnew, hmissed⟩ := s.guard_tripOwn_afterExpiry x o .stale
    rw [State.guardState, htrip]
    exact ⟨hstate, hpermit, hclean, hnotice, r, hr, hnew, hmissed.trans hstale'.raised⟩
  · intro rep e hrep he hwhen
    have hunfold := hevaluates hrep he hwhen
    have hstate : (s.afterExpiry x (some e) (s.guardAtExpiry x)).guardState x = s.guardState x :=
      State.guardState_afterExpiry
    have hguard (h : s.guardState x ≠ .arming) : s.guardAtExpiry x = g := if_neg h
    have hclear (hlive : s.guardState x = .live) (hle : missed ≤ limit) (hresult : e.result = none) :
        (s.afterExpiry x (some e) (s.guardAtExpiry x)).guardActs x e (s.expiryStart x) = after (some e) g :=
      (State.guardActs_live_clear (hstate.trans hlive) (State.expiryStart_ne_stale hle) hresult).trans
        (by rw [hguard (by simp [hlive])]; rfl)
    have hbreach {c : Cause} (hlive : s.guardState x = .live) (hle : missed ≤ limit) (hresult : e.result = some c) :
        (s.afterExpiry x (some e) (s.guardAtExpiry x)).guardActs x e (s.expiryStart x) =
          (after (some e) g).tripOwn x c :=
      (State.guardActs_live_breach (hstate.trans hlive) (State.expiryStart_ne_stale hle) hresult).trans
        (by rw [hguard (by simp [hlive])]; rfl)
    have htripped (h : s.guardState x = .tripped) :
        (s.afterExpiry x (some e) (s.guardAtExpiry x)).guardActs x e (s.expiryStart x) =
          after (some e) (g.noted e) := by
      rw [State.guardActs_tripped (hstate.trans h), State.arm_afterExpiry, hguard (by simp [h])]
      simp [State.setGuard, State.afterExpiry, after]
      rfl
    have hevaluation : (((s.afterExpiry x (some e) (s.guardAtExpiry x)).guardActs x e (s.expiryStart x)).arm x).evaluation =
        some e := by rw [(parts_guardActs _ _ _ _ _).2, State.arm_afterExpiry]
    have hafter (o : Option Evaluation) (h : Guard) : ((after o h).arm x).guard = h := by simp [after]
    rw [hunfold]
    refine ⟨by rw [State.arm_handOff]; exact hevaluation, fun hlive hresult hle => ?_, fun c hlive hresult hle => ?_,
      fun h => ?_, _, State.drainTested_handOff hevaluation, fun h => ?_, hclear, fun c hlive hle => hbreach hlive hle, fun h => ?_, fun h => ?_⟩
    · rw [hclear hlive hle hresult, State.guard_handOff, hafter, State.tripTiles_handOff]
      exact ⟨rfl, State.tripTiles_setArm ..⟩
    · obtain ⟨hstate', hpermit, -, hrecord⟩ := s.guard_tripOwn_afterExpiry x (some e) c
      rw [hbreach hlive hle hresult, State.guardState, State.guard_handOff]
      exact ⟨hstate', hpermit, hrecord⟩
    · rw [htripped h, State.guard_handOff, hafter, State.tripTiles_handOff]
      exact ⟨rfl, State.tripTiles_setArm ..⟩
    · rw [State.guardActs_arming (hstate.trans h), if_neg State.expiryStart_ne_fresh, State.guardAtExpiry, if_pos h]
      rfl
    · rw [State.guardActs_live_stale (hstate.trans h.1) (State.StaleNow.start h), hguard (by simp [h.1])]
      rfl
    · rw [htripped h, State.guard_handOff, hafter]

/-! ### OVERSPEED (R23, R38, R39) -/

theorem Probe.lt_speed_iff {q : Probe} {v : Nat} : v < q.speed ↔ v < q.svx.natAbs ∨ v < q.svy.natAbs := lt_max_iff

/-- An evaluation with a probe above VMAX. -/
theorem State.evaluateProbes_fast {s : State} {x : Arm} {tool : Probe} {elbow : Option Probe}
    (h : (s.params.arm x).vmax < tool.speed ∨ ∃ q, elbow = some q ∧ (s.params.arm x).vmax < q.speed)
    (count : BitVec 4) (m : Nat) :
    s.evaluateProbes x count m tool elbow =
      { count := count, missed := m, result := some .overspeed,
        kind := some (if (s.params.arm x).vmax < tool.speed then .tool else .elbow), tile := none,
        foreign := ⟨false, false, false⟩, retained := true,
        tool := overspeedEntry (s.params.arm x).vmax tool (keptTool (s.arm x).evaluation),
        elbow := elbow.map fun q => overspeedEntry (s.params.arm x).vmax q (keptElbow (s.arm x).evaluation) } := by
  refine if_pos ?_
  rw [Bool.or_eq_true, decide_eq_true_eq, Option.any_eq_true]
  exact h.imp_right fun ⟨q, hq, hfast⟩ => ⟨q, hq, decide_eq_true hfast⟩

/-- The cover of an evaluation is that of its envelopes. -/
theorem Evaluation.covers_congr {e f : Evaluation} (htool : e.tool.envelope = f.tool.envelope)
    (helbow : (e.elbow.bind fun b => b.envelope) = f.elbow.bind fun b => b.envelope) (t : Tile) :
    e.covers t = f.covers t := by
  rw [Bool.eq_iff_iff, Evaluation.covers_iff, Evaluation.covers_iff, Evaluation.envelopes, Evaluation.envelopes, htool,
    helbow]

/-- The overspeed evaluation of a report ends with the guard's action: no drain test (R39). -/
theorem State.evaluateReport_overspeed {s : State} {x : Arm} {rep : Report} {m : Nat} {e : Evaluation}
    (he : s.evaluate x rep m = some e) (hfast : e.result = some .overspeed) (st : Start) :
    s.evaluateReport x rep m st = (s.setEvaluation x (some e)).guardActs x e st := by
  rw [State.evaluateReport_of_evaluate he]
  exact if_pos hfast

/-- Settles O30, by the entries that an OVERSPEED evaluation writes and by the guard state of the arm. -/
theorem overspeedKeepsTheEnvelope : Obligations.OverspeedKeepsTheEnvelope := by
  unfold Obligations.OverspeedKeepsTheEnvelope
  intro s x count m tool elbow a fast hfast e
  have hspeed (q : Probe) : fast q ↔ a.vmax < q.speed := Probe.lt_speed_iff.symm
  have he : e = _ := State.evaluateProbes_fast
    (hfast.imp (hspeed tool).mp fun ⟨q, hq, h⟩ => ⟨q, hq, (hspeed q).mp h⟩) count m
  have hreport {rep : Report} (hprobes : rep.evaluated a = some (tool, elbow)) (hcount : rep.count = count) :
      s.evaluate x rep m = some e := by
    rw [State.evaluate, hprobes, Option.map_some, hcount]
  have hresult : e.result = some .overspeed := by rw [he]
  have hguard : ((s.setEvaluation x (some e)).arm x).guard = (s.arm x).guard := by simp
  refine ⟨hresult, by rw [he], by rw [he], by rw [he], by rw [he], by rw [he], by rw [he]; rfl,
    fun hnone => by rw [he, hnone]; rfl, fun htool => ?_, fun htool => ?_, fun q hq => ?_, fun hnone t => ?_,
    fun old hold => ?_, fun hoffline rep hprobes hcount => ?_, fun rep hprobes hcount st hst => ⟨fun hlive => ?_, fun htripped => ?_⟩⟩
  · rw [he]; simp [overspeedEntry, (hspeed tool).mp htool, a]
  · rw [he]
    have : ¬(s.params.arm x).vmax < tool.speed := fun h => htool ((hspeed tool).mpr h)
    simp [overspeedEntry, this]
  · rw [he]
    refine ⟨_, by rw [hq]; rfl, rfl, fun h => if_pos ((hspeed q).mp h), fun h => if_neg fun hlt => h ((hspeed q).mpr hlt)⟩
  · rw [he, hnone]
    cases elbow <;> rfl
  · have htool : e.tool.envelope = old.tool.envelope := by rw [he, hold]; rfl
    refine ⟨htool, fun hboth => Evaluation.covers_congr htool ?_⟩
    rw [he, hold]
    cases elbow with
    | none => rw [Option.isSome_eq_false_iff.mp hboth.symm |> Option.isNone_iff_eq_none.mp]; rfl
    | some q =>
      obtain ⟨b, hb⟩ := Option.isSome_iff_exists.mp hboth.symm
      simp [overspeedEntry, keptElbow, hb]
  · rw [State.evaluateReport_overspeed (hreport hprobes hcount) hresult]
    exact State.guardActs_offline (by rw [State.guardState_setEvaluation]; exact hoffline)
  · rw [State.evaluateReport_overspeed (hreport hprobes hcount) hresult]
    exact State.guardActs_live_breach (by rw [State.guardState_setEvaluation]; exact hlive)
      (by obtain rfl | rfl := hst <;> simp) hresult
  · rw [State.evaluateReport_overspeed (hreport hprobes hcount) hresult,
      State.guardActs_tripped (by rw [State.guardState_setEvaluation]; exact htripped), hguard]
    simp [State.setGuard, State.setEvaluation, Guard.noted, hresult]

/-! ### NOP with a fresh report (R121, R122, R133, R144) -/

theorem State.controlKept_placeReply {s u : State} (h : s.ControlKept u) (p : Party) (tag : BitVec 4) (kind : Byte)
    (a : Answer) : s.ControlKept (u.placeReply p tag kind a) := by
  rw [h]
  cases p <;> rfl

@[simp] theorem State.attention_placeReply (s : State) (p q : Party) (tag : BitVec 4) (kind : Byte) (a : Answer) :
    ((s.placeReply p tag kind a).port q).attention = (s.port q).attention := by
  by_cases hq : q = p
  · subst hq; rw [State.port_placeReply]
  · rw [State.port_placeReply_of_ne _ _ _ _ hq]

theorem State.arm_countClean_of_ne (s : State) {x y : Arm} (e : Evaluation) (h : y ≠ x) :
    (s.countClean x e).arm y = s.arm y := by
  unfold State.countClean
  dsimp only
  split_ifs <;> simp [State.arm_setGuard_of_ne _ _ h]

/-- NOP with a fresh report answers on the state that the report leaves. -/
theorem exec_nop_fresh {x : Arm} {tag : BitVec 4} {rep : Report} {s : State}
    (htaken : s.taken x.party (.nop x.party tag (some rep)) = true)
    (hfresh : reportOutcome rep (s.params.arm x).elbowRadius (s.arm x).monitor.lastCount = .fresh)
    (hreported : (s.port x.party).reported = false) :
    ∃ kind a, exec (.nop x.party tag (some rep)) s = .next ((s.freshReport x rep).placeReply x.party tag kind a) := by
  have hafter : s.afterReport x.party (some rep) = s.freshReport x rep :=
    (State.afterReport_of_not (some rep) hreported).trans (State.takeReport_of_outcome hfresh)
  exact ⟨_, _, hafter ▸ exec_nop x.party tag (some rep) htaken⟩

/-- Settles O31, by the clean count of the arm. -/
theorem cleanRunGivesThePermit : Obligations.CleanRunGivesThePermit := by
  unfold Obligations.CleanRunGivesThePermit
  intro x tag rep s e htaken hfresh hreported harming he g a clean
  obtain ⟨kind, answer, hexec⟩ := exec_nop_fresh htaken hfresh hreported
  have hjoined : s.guardState x ≠ .offline := by simp [harming]
  have hunfold := State.freshReport_of_evaluate hjoined he
  have hacts : (s.setArm x ⟨s.freshMonitor x rep, some e, g⟩).guardActs x e .fresh =
      (s.setArm x ⟨s.freshMonitor x rep, some e, g⟩).countClean x e :=
    (State.guardActs_arming (by rw [State.guardState_setArm]; exact harming)).trans (if_pos rfl)
  rw [hacts] at hunfold
  have hparams : (s.setArm x ⟨s.freshMonitor x rep, some e, g⟩).params = s.params := by simp
  have harm : (s.setArm x ⟨s.freshMonitor x rep, some e, g⟩).arm x = ⟨s.freshMonitor x rep, some e, g⟩ :=
    State.arm_setArm ..
  have hguard : (((s.freshReport x rep).placeReply x.party tag kind answer).arm x).guard =
      (((s.setArm x ⟨s.freshMonitor x rep, some e, g⟩).countClean x e).arm x).guard := by
    rw [State.arm_placeReply, hunfold, State.guard_handOff]
  refine ⟨_, hexec, fun hclean hcount => ?_, fun hclean hcount => ?_, fun hclean => ?_, ?_,
    State.controlKept_placeReply ((State.Moves.refl s).freshReport x rep).controlKept ..⟩
  · have hlive := State.countClean_live (s := s.setArm x ⟨s.freshMonitor x rep, some e, g⟩)
      (by rw [hparams]; exact hclean) (by rw [hparams, harm]; exact hcount)
    rw [hguard, hlive, harm]
    refine ⟨by simp, ?_⟩
    rw [State.attention_placeReply, hunfold, hlive, ← State.count_of_evaluate he]
    exact State.mem_attention_handOff (by simp [Notice.code]) (State.mem_attention_raise ..)
  · rw [hguard, State.countClean_counts (by rw [hparams]; exact hclean) (by rw [hparams, harm]; exact hcount), harm]
    simp
  · rw [hguard, State.countClean_breaks (by rw [hparams]; exact hclean), harm]
    simp
  · rw [State.arm_placeReply, hunfold, State.arm_handOff, State.arm_countClean_of_ne _ _ (Arm.other_ne x),
      State.arm_setArm_of_ne _ _ (Arm.other_ne x)]

/-! ### A trip and the drain test after it -/

/-- The drain test leaves a slot EMPTY of a party that has no claim in the queue. -/
theorem State.slot_drain_of_empty {s : State} {x : Arm} {p : Party} {k : SlotNo} (hslot : s.slot p k = .empty)
    (hqueue : ∀ n ∈ s.queue, n.party ≠ p) : (s.drain x).slot p k = .empty := by
  obtain hkept | ⟨j, r, t, q, hj, -, -, hdrained⟩ := s.drain_cases x
  · rw [hkept, hslot]
  · have hreleased : (s.releaseSlot x.party j).1.slot p k = .empty := by
      by_cases hheld : (s.slot x.party j).heldRect.isSome = true
      · rw [State.slot_releaseSlot _ _ _ _ _ hheld]
        split_ifs with hp hk
        · rfl
        · rw [← hp, hslot]; rfl
        · exact hslot
      · rw [State.releaseSlot_none (by simpa using hheld)]; exact hslot
    rw [hdrained, State.slot_grantScan_of_no_entry (by simpa using hqueue), State.slot_raise, hreleased]

/-- Under the queue's law a trip and the drain test after it leave the arm's PENDING claim cancelled. -/
theorem State.pendingCancelled_handOff {s : State} {x : Arm} {c : Cause} {e : Evaluation} (horder : s.QueueOrder) :
    s.PendingCancelled ((s.tripOwn x c).handOff x e) x := by
  intro k hk
  obtain ⟨w, hway, ht⟩ := s.exists_tripWay x c
  obtain ⟨hslot, hentry, hnotice⟩ := hway.laid.pendingCancelled horder k hk
  rw [← ht] at hslot hentry hnotice
  have hentries : ∀ n ∈ (s.tripOwn x c).queue, n.party ≠ x.party := fun n hn =>
    hway.laid.party_ne horder (((State.Moves.refl w).grantScan).queue_sublist.mem (ht ▸ hn))
  refine ⟨?_, ?_, State.mem_attention_handOff (by simp [Notice.code]) hnotice⟩
  · unfold State.handOff
    split
    · exact hslot
    · exact State.slot_drain_of_empty hslot hentries
  · unfold State.handOff
    split
    · exact hentry
    · exact fun h => hentry (((State.Moves.refl _).drain x).queue_sublist.mem h)

/-- An evaluation with a result names the probe kind that has it (R36). -/
theorem State.kind_of_evaluate {s : State} {x : Arm} {rep : Report} {m : Nat} {e : Evaluation} {c : Cause}
    (h : s.evaluate x rep m = some e) (hc : e.result = some c) : ∃ k, e.kind = some k := by
  obtain ⟨q, -, rfl⟩ := Option.map_eq_some_iff.mp h
  revert hc
  unfold State.evaluateProbes
  dsimp only
  split
  · exact fun _ => ⟨_, rfl⟩
  · intro hc
    obtain ⟨v, hv, -⟩ := Option.map_eq_some_iff.mp hc
    exact ⟨v.2.1, by rw [hv]; rfl⟩

/-- The record of a trip with an own cause takes what the evaluation found (R142). -/
theorem State.newRecord_own {s : State} {x : Arm} {e : Evaluation} (he : (s.arm x).evaluation = some e) (c : Cause) :
    (s.newRecord x c true none).kind = e.kind ∧ (s.newRecord x c true none).tile = e.tile ∧
    (s.newRecord x c true none).count = some e.count ∧ (s.newRecord x c true none).rect = e.rect ∧
    (∀ k, e.kind = some k → (s.newRecord x c true none).speed = some (e.speedOf k)) := by
  refine ⟨?_, ?_, ?_, ?_, fun k hk => ?_⟩ <;> simp [State.newRecord, State.tripRecord, he]
  rw [hk]

/-- Settles O32, by the guard state of the arm. -/
theorem breachTripsALiveArm : Obligations.BreachTripsALiveArm := by
  unfold Obligations.BreachTripsALiveArm
  intro x tag rep s e htaken hfresh hreported he g
  obtain ⟨kind, answer, hexec⟩ := exec_nop_fresh htaken hfresh hreported
  have hcontrol := State.controlKept_placeReply ((State.Moves.refl s).freshReport x rep).controlKept x.party tag kind answer
  obtain ⟨u, hu⟩ : ∃ u, u = s.setArm x ⟨s.freshMonitor x rep, some e, g⟩ := ⟨_, rfl⟩
  have harm : u.arm x = ⟨s.freshMonitor x rep, some e, g⟩ := by rw [hu, State.arm_setArm]
  have hotherArm : u.arm x.other = s.arm x.other := by rw [hu, State.arm_setArm_of_ne _ _ (Arm.other_ne x)]
  have hstate : u.guardState x = s.guardState x := by rw [State.guardState, harm]; rfl
  have htile (z : Tile) : u.tile z = s.tile z := by rw [hu, State.tile_setArm]
  have htripTiles : u.tripTiles x = s.tripTiles x := by rw [hu, State.tripTiles_setArm]
  have htouches (z : Tile) : u.touches x z = e.covers z := by simp [State.touches, harm]
  have hunfold (h : s.guardState x ≠ .offline) : s.freshReport x rep = (u.guardActs x e .fresh).handOff x e :=
    hu ▸ State.freshReport_of_evaluate h he
  refine ⟨_, hexec, fun hlive hclear => ?_, fun c hlive hbreach => ?_, fun htripped => ?_, hcontrol⟩
  · rw [State.arm_placeReply, State.tripTiles_placeReply, hunfold (by simp [hlive]),
      State.guardActs_live_clear (hstate.trans hlive) (by simp) hclear, State.guard_handOff, State.tripTiles_handOff, harm]
    exact ⟨rfl, htripTiles⟩
  · have htrip : s.freshReport x rep = (u.tripOwn x c).handOff x e := by
      rw [hunfold (by simp [hlive]), State.guardActs_live_breach (hstate.trans hlive) (by simp) hbreach]
    obtain ⟨w, hway, ht⟩ := u.exists_tripWay x c
    obtain ⟨-, hclaim, -⟩ := hway.laid.ownTrip
    obtain ⟨hkind, htileOf, hcount, hrect, hspeed⟩ := State.newRecord_own (by rw [harm]) c (s := u) (x := x) (e := e)
    have hcell {n : Notice} (hcode : n.code ≠ 1 ∧ n.code ≠ 6 ∧ n.code ≠ 16) {p : Party}
        (hn : n ∈ (w.grantScan.port p).attention) : n ∈ ((s.freshReport x rep).port p).attention := by
      rw [htrip, ht]; exact State.mem_attention_handOff hcode hn
    have hfree (z : Tile) : u.FreeOpen z ↔ (s.tile z).owner = none ∧ (s.tile z).service = .opened := by
      rw [State.FreeOpen, htile]
    simp only [State.guardState, State.arm_placeReply, State.tripTiles_placeReply, State.attention_placeReply]
    have hguard : ((s.freshReport x rep).arm x).guard = ⟨.tripped, false, 0, g.joined, some (u.newRecord x c true none)⟩ := by
      rw [htrip, State.guard_handOff, State.guard_tripOwn, harm]
    have htiles : (s.freshReport x rep).tripTiles x = w.grantScan.tripTiles x := by
      rw [htrip, State.tripTiles_handOff, ht]
    refine ⟨by rw [hguard], by rw [hguard], by rw [hguard], by rw [hguard],
      ⟨u.newRecord x c true none, by rw [hguard], ⟨rfl, rfl, rfl⟩, hkind, htileOf, ?_, ?_, hrect, ?_, ?_, ?_, ?_⟩, fun z => ?_, fun hlaw k hk => ?_,
      fun z hz hlast => hcell (by simp [Notice.code]) (hway.intrusion ?_ ?_),
      hcell (by simp [Notice.code]) hway.laid.tripped_grantScan, hcell (by simp [Notice.code]) hway.armTripped⟩
    · rw [hcount, State.count_of_evaluate he]
    · simp only [State.newRecord, State.tripRecord, harm]; rfl
    · obtain ⟨k, hk⟩ := State.kind_of_evaluate he hbreach
      rw [hspeed k hk, hk]; rfl
    · have hmeasures := u.tripRecord_measures x c true none
      rw [harm] at hmeasures
      exact hmeasures
    · refine State.tripContested_iff.trans ?_
      simp only [htouches, htile]
    · rw [hway.laid.tileCount, htiles]
    · rw [htiles, hclaim, htouches, htile, hfree]
    · have horder : u.QueueOrder := hlaw.order.of_slots (by simp [hu]) fun p k => by simp [hu]
      have hslot : u.slot x.party k = s.slot x.party k := by simp [hu]
      obtain ⟨hempty, hentry, hnotice⟩ := State.pendingCancelled_handOff (c := c) (e := e) horder k (hslot ▸ hk)
      rw [← htrip] at hempty hentry hnotice
      exact ⟨by rw [State.slot_placeReply]; exact hempty, by simpa using hentry,
        by rw [State.attention_placeReply]; exact hnotice⟩
    · rw [State.intruded_eq_some]
      exact (isFirst_congr (fun z => by rw [State.IntrudedAt, htouches, htile]) z).mpr hz
    · by_cases hspread : u.Spreads x
      · refine .inr (State.intruded_eq_none.mpr fun hother => hlast ?_)
        obtain ⟨z, hz, howner⟩ := hother
        refine ⟨by have := hspread.2.2.2; simpa [hu] using this, (State.trippable_congr hotherArm).symm.trans hspread.1, z, ?_⟩
        exact ⟨(State.touches_congr (by rw [hotherArm]) z).symm.trans hz, htile z ▸ howner⟩
      · exact .inl hspread
  · rw [State.arm_placeReply, State.tripTiles_placeReply, hunfold (by simp [htripped]),
      State.guardActs_tripped (hstate.trans htripped), State.guard_handOff, State.tripTiles_handOff, harm]
    simp only [State.arm_setGuard, State.tripTiles_setGuard]
    exact ⟨rfl, htripTiles⟩

end Sys2Proof.Machine
end

section
/-! SUPPORT. The stopping envelope: its intervals, its cover, the result of a probe and of an evaluation. -/

namespace Sys2Proof.Machine

open Sys2Proof

/-! ### Intervals (R25 to R28) -/

/-- Under lawful parameters no probe within VMAX travels further than 19440 mm along an axis. -/
theorem ArmParams.Law.reach_le {a : ArmParams} (h : a.Law) {v : Int} {m : Nat} (hv : v.natAbs ≤ a.vmax)
    (hm : m ≤ a.staleLimit + 1) : a.reach v m ≤ 19440 := by
  obtain ⟨-, -, hreaction, hdecel, hvmax, -, -, hperiod, -, hstale⟩ := h
  have hv' : v.natAbs ≤ 4000 := hv.trans hvmax.2
  have hm' : m ≤ 9 := hm.trans (by omega)
  have hreact : ceilDiv (v.natAbs * a.reaction) 100 ≤ 2000 :=
    (ceilDiv_le_iff_le_divisor_mul (by decide)).mpr ((Nat.mul_le_mul hv' hreaction.2).trans (by decide))
  have hbraking : ceilDiv (v.natAbs * v.natAbs) (200 * a.decel) ≤ 16000 :=
    (ceilDiv_le_iff_le_divisor_mul (by omega)).mpr
      ((Nat.mul_le_mul hv' hv').trans (by have := hdecel.1; omega))
  have hinflation : inflation v.natAbs m a.reportPeriod ≤ 1440 :=
    inflation_le_iff.mpr ((Nat.mul_le_mul (Nat.mul_le_mul hv' hm') hperiod.2).trans (by decide))
  unfold ArmParams.reach stopDistance
  omega

theorem Params.Law.arm {ps : Params} (h : ps.Law) (x : Arm) : (ps.arm x).Law := by
  obtain ⟨-, -, -, -, -, -, -, -, -, hA, hB⟩ := h
  cases x
  · exact hA
  · exact hB

/-- A 16-bit coordinate. -/
theorem toInt_word_bounds (w : Word16) : -32768 ≤ w.toInt ∧ w.toInt ≤ 32767 := by
  have hlo := BitVec.le_toInt w
  have hhi := BitVec.toInt_le (x := w)
  norm_num at hlo hhi
  omega

/-- The bounds of an interval whose reach is bounded. -/
theorem axisInterval_bounds {c v : Int} {f reach : Nat} (hc : -32768 ≤ c ∧ c ≤ 32767) (hf : f ≤ 1500)
    (hreach : reach ≤ 19440) :
    -53708 ≤ (axisInterval c v f reach).1 ∧ (axisInterval c v f reach).1 ≤ 32767 ∧
    -32768 ≤ (axisInterval c v f reach).2 ∧ (axisInterval c v f reach).2 ≤ 53707 := by
  rw [axisInterval_spec]
  dsimp only
  split_ifs <;> omega

theorem axisInterval_width (c v : Int) (f reach : Nat) :
    (axisInterval c v f reach).1 + 2 * f ≤ (axisInterval c v f reach).2 := by
  rw [axisInterval_spec]
  dsimp only
  split_ifs <;> omega

/-- Settles O26, by the interval of one axis. -/
theorem envelopeIntervals : Obligations.EnvelopeIntervals := by
  unfold Obligations.EnvelopeIntervals
  intro ps x r m q a e f along
  have hxs := axisInterval_spec q.sx q.svx (r + ps.guardMargin) (a.reach q.svx m)
  have hys := axisInterval_spec q.sy q.svy (r + ps.guardMargin) (a.reach q.svy m)
  have hf : f = ((r + ps.guardMargin : Nat) : Int) := by simp [f]
  refine ⟨?_, ?_, ?_, ?_, ?_, ?_, fun hlaw hr hm hspeed => ?_⟩
  · exact (congrArg Prod.fst hxs).trans (by rw [hf]; rfl)
  · exact (congrArg Prod.snd hxs).trans (by rw [hf]; rfl)
  · exact (congrArg Prod.fst hys).trans (by rw [hf]; rfl)
  · exact (congrArg Prod.snd hys).trans (by rw [hf]; rfl)
  · rw [hf]; exact axisInterval_width ..
  · rw [hf]; exact axisInterval_width ..
  · have hmargin : r + ps.guardMargin ≤ 1500 := by obtain ⟨-, -, -, hmargin, -⟩ := hlaw; omega
    obtain ⟨hvx, hvy⟩ := max_le_iff.mp hspeed
    refine ⟨by rw [hf]; exact_mod_cast hmargin, fun i hi => ?_⟩
    obtain rfl | rfl := hi
    · exact axisInterval_bounds (toInt_word_bounds q.x) hmargin ((hlaw.arm x).reach_le hvx hm)
    · exact axisInterval_bounds (toInt_word_bounds q.y) hmargin ((hlaw.arm x).reach_le hvy hm)

/-! ### Cover (R29 to R31) -/

theorem Params.colRange_eq_none {ps : Params} (hpitch : 0 < ps.pitch) {lo hi : Int} :
    ps.colRange lo hi = none ↔ hi < 0 ∨ (ps.ncol : Int) * ps.pitch ≤ lo := by
  have hp : (0 : Int) < ps.pitch := by exact_mod_cast hpitch
  have hhi : hi / (ps.pitch : Int) < 0 ↔ hi < 0 := by rw [Int.ediv_lt_iff_lt_mul hp, Int.zero_mul]
  have hlo : (ps.ncol : Int) ≤ lo / (ps.pitch : Int) ↔ (ps.ncol : Int) * ps.pitch ≤ lo := Int.le_ediv_iff_mul_le hp
  rw [← hhi, ← hlo]
  unfold Params.colRange
  dsimp only
  split_ifs with h <;> simp [h]

/-- A column is covered where it is active and the x interval meets it. -/
theorem Params.mem_colRange {ps : Params} (hpitch : 0 < ps.pitch) (hncol : 0 < ps.ncol) {lo hi : Int} {c : Nat} :
    (∃ l h, ps.colRange lo hi = some (l, h) ∧ l ≤ c ∧ c ≤ h) ↔
      c < ps.ncol ∧ (c : Int) * ps.pitch ≤ hi ∧ lo < ((c : Int) + 1) * ps.pitch := by
  have hp : (0 : Int) < ps.pitch := by exact_mod_cast hpitch
  rw [← Int.le_ediv_iff_mul_le hp, ← Int.ediv_lt_iff_lt_mul hp]
  unfold Params.colRange
  dsimp only
  split_ifs with hout
  · simp
    omega
  · simp
    omega

/-- A row is covered where it is active and the y interval meets it, the edge rows taking what lies beyond them. -/
theorem Params.mem_rowRange {ps : Params} (hpitch : 0 < ps.pitch) {lo hi : Int} {r : Nat} (hr : r < ps.nrow) :
    ((ps.rowRange lo hi).1 ≤ r ∧ r ≤ (ps.rowRange lo hi).2) ↔
      (r = 0 ∨ (r : Int) * ps.pitch ≤ hi) ∧ (r + 1 = ps.nrow ∨ lo < ((r : Int) + 1) * ps.pitch) := by
  have hp : (0 : Int) < ps.pitch := by exact_mod_cast hpitch
  rw [← Int.le_ediv_iff_mul_le hp, ← Int.ediv_lt_iff_lt_mul hp]
  unfold Params.rowRange Params.clampRow
  dsimp only
  omega

/-- Settles O27, by the column range and the row range. -/
theorem coverIsTheTilesMet : Obligations.CoverIsTheTilesMet := by
  unfold Obligations.CoverIsTheTilesMet
  intro ps a r m q hpitch hncol hnrow e
  have hp : (0 : Int) < ps.pitch := by exact_mod_cast hpitch
  have hy : e.yLo ≤ e.yHi := axisInterval_le ..
  have hclamp (i : Int) : ps.clampRow i < ps.nrow := Params.clampRow_lt hnrow i
  refine ⟨fun t => ?_, decide_eq_true_iff, decide_eq_true_iff, Params.colRange_eq_none hpitch, ?_, hclamp _⟩
  · have hcols := Params.mem_colRange hpitch hncol (lo := e.xLo) (hi := e.xHi) (c := t.col.val)
    have hactive : ps.active t = true ↔ t.col.val < ps.ncol ∧ t.row.val < ps.nrow := by simp [Params.active]
    have hrow : t.row.val ≤ e.rows.2 → t.row.val < ps.nrow := fun h => h.trans_lt (hclamp _)
    have hrows (h : t.row.val < ps.nrow) := Params.mem_rowRange hpitch (lo := e.yLo) (hi := e.yHi) h
    rw [Envelope.covers_iff, hactive]
    constructor
    · rintro ⟨l, h, hcol, hin, hlo, hhi⟩
      obtain ⟨hlt, hxHi, hxLo⟩ := hcols.mp ⟨l, h, hcol, hin⟩
      obtain ⟨hyHi, hyLo⟩ := (hrows (hrow hhi)).mp ⟨hlo, hhi⟩
      exact ⟨⟨hlt, hrow hhi⟩, hxHi, hxLo, hyHi, hyLo⟩
    · rintro ⟨⟨hlt, hrowlt⟩, hxHi, hxLo, hyHi, hyLo⟩
      obtain ⟨l, h, hcol, hin⟩ := hcols.mpr ⟨hlt, hxHi, hxLo⟩
      exact ⟨l, h, hcol, hin, (hrows hrowlt).mpr ⟨hyHi, hyLo⟩⟩
  · have hdiv : e.yLo / (ps.pitch : Int) ≤ e.yHi / (ps.pitch : Int) := Int.ediv_le_ediv hp hy
    show ps.clampRow (e.yLo / (ps.pitch : Int)) ≤ ps.clampRow (e.yHi / (ps.pitch : Int))
    unfold Params.clampRow
    omega

/-! ### The result of a probe (R32 to R35) -/

section
variable {s : State} {x : Arm} {e : Envelope}

/-- The tiles of a class under an envelope. -/
theorem State.firstOfClass_eq_some {c : TileClass} {f : Tile → Prop}
    (hf : ∀ t, f t ↔ e.covers t = true ∧ (s.tile t).classify x = c) {t : Tile} (h : IsFirst f t) :
    s.firstOfClass x e c = some t :=
  firstTile_eq_some_iff.mpr ((isFirst_congr (fun z => by rw [hf]; simp) t).mp h)

theorem State.firstOfClass_eq_none {c : TileClass} {f : Tile → Prop}
    (hf : ∀ t, f t ↔ e.covers t = true ∧ (s.tile t).classify x = c) (h : ¬∃ t, f t) : s.firstOfClass x e c = none :=
  firstTile_eq_none_iff.mpr fun ⟨t, ht⟩ => h ⟨t, (hf t).mpr (by simpa using ht)⟩

theorem TileRecord.classify_foreign_iff {r : TileRecord} : r.classify x = .foreign ↔ ∃ p, r.owner = some p ∧ p ≠ x.party := by
  unfold TileRecord.classify
  cases r.owner with
  | none => by_cases h : r.service = .blocked <;> simp [h]
  | some p => by_cases h : p = x.party <;> simp [h]

theorem TileRecord.classify_blocked_iff {r : TileRecord} : r.classify x = .blocked ↔ r.owner = none ∧ r.service = .blocked := by
  unfold TileRecord.classify
  cases r.owner with
  | none => by_cases h : r.service = .blocked <;> simp [h]
  | some p => by_cases h : p = x.party <;> simp [h]

theorem TileRecord.classify_unclaimed_iff {r : TileRecord} :
    r.classify x = .unclaimed ↔ r.owner = none ∧ r.service ≠ .blocked := by
  unfold TileRecord.classify
  cases r.owner with
  | none => by_cases h : r.service = .blocked <;> simp [h]
  | some p => by_cases h : p = x.party <;> simp [h]

theorem aboveLimit_iff {v : Nat} {o : Option Nat} : aboveLimit v o = true ↔ ∃ l, o = some l ∧ l < v := by
  cases o <;> simp [aboveLimit]

/-- A speed is above the lesser of two limits where it is above one of them. -/
theorem aboveLimit_lesserLimit (v : Nat) (a b : Option Nat) :
    aboveLimit v (lesserLimit a b) = (aboveLimit v a || aboveLimit v b) := by
  cases a <;> cases b <;> simp [lesserLimit, aboveLimit]

/-- A speed is above the lowest zone limit where it is above that of some covered tile (R34). -/
theorem State.aboveLimit_lowestZone (v : Nat) : aboveLimit v (s.lowestZone e) = true ↔
    ∃ t, e.covers t = true ∧ aboveLimit v (s.params.zoneLimit (s.tile t).speedClass) = true := by
  have hfold (l : List (Option Nat)) : aboveLimit v (l.foldr lesserLimit none) = l.any (aboveLimit v) := by
    induction l with
    | nil => rfl
    | cons a l ih => rw [List.foldr_cons, aboveLimit_lesserLimit, ih, List.any_cons]
  rw [State.lowestZone, hfold]
  simp

/-- The result of a probe whose envelope stays off the far side, step by step (R35). -/
theorem State.probeResult_near (h : ¬e.farSide x = true) (v : Nat) :
    (∀ t, s.firstOfClass x e .foreign = some t → s.probeResult x e v = (.breach .foreign, some t)) ∧
    (s.firstOfClass x e .foreign = none →
      (∀ t, s.firstOfClass x e .blocked = some t → s.probeResult x e v = (.breach .blocked, some t)) ∧
      (s.firstOfClass x e .blocked = none →
        (∀ t, s.firstOfClass x e .unclaimed = some t → s.probeResult x e v = (.breach .unclaimed, some t)) ∧
        (s.firstOfClass x e .unclaimed = none →
          s.probeResult x e v = if aboveLimit v (s.lowestZone e) = true then
            (.breach .zoneSpeed,
              firstTile fun t => e.covers t && aboveLimit v (s.params.zoneLimit (s.tile t).speedClass))
            else (.clear, none)))) := by
  unfold State.probeResult
  rw [if_neg h]
  refine ⟨fun t ht => by rw [ht], fun hforeign => ⟨fun t ht => by rw [hforeign, ht], fun hblocked =>
    ⟨fun t ht => by rw [hforeign, hblocked, ht], fun hunclaimed => by rw [hforeign, hblocked, hunclaimed]⟩⟩⟩

end

/-- Settles O28, test by test. -/
theorem probeResultByPriority : Obligations.ProbeResultByPriority := by
  unfold Obligations.ProbeResultByPriority
  intro s x e speed res foreign blocked unclaimed limit tooFast far
  have hlimit (c : Fin 4) : limit c = s.params.zoneLimit c := by fin_cases c <;> rfl
  have hfar : far ↔ e.farSide x = true := by cases x <;> rfl
  have hforeign (t : Tile) : foreign t ↔ e.covers t = true ∧ (s.tile t).classify x = .foreign :=
    and_congr_right fun _ => TileRecord.classify_foreign_iff.symm
  have hblocked (t : Tile) : blocked t ↔ e.covers t = true ∧ (s.tile t).classify x = .blocked :=
    and_congr_right fun _ => TileRecord.classify_blocked_iff.symm
  have hunclaimed (t : Tile) : unclaimed t ↔ e.covers t = true ∧ (s.tile t).classify x = .unclaimed :=
    and_congr_right fun _ => TileRecord.classify_unclaimed_iff.symm
  have hfast (t : Tile) :
      tooFast t ↔ e.covers t = true ∧ aboveLimit speed (s.params.zoneLimit (s.tile t).speedClass) = true := by
    rw [aboveLimit_iff, ← hlimit]
  refine ⟨fun h => if_pos (hfar.mp h), fun h => ?_⟩
  obtain ⟨hresForeign, hnext⟩ := State.probeResult_near (s := s) (fun hx => h (hfar.mpr hx)) speed
  refine ⟨fun t ht => hresForeign t (State.firstOfClass_eq_some hforeign ht), fun hno => ?_⟩
  obtain ⟨hresBlocked, hnext⟩ := hnext (State.firstOfClass_eq_none hforeign hno)
  refine ⟨fun t ht => hresBlocked t (State.firstOfClass_eq_some hblocked ht), fun hno => ?_⟩
  obtain ⟨hresUnclaimed, hnext⟩ := hnext (State.firstOfClass_eq_none hblocked hno)
  refine ⟨fun t ht => hresUnclaimed t (State.firstOfClass_eq_some hunclaimed ht), fun hno => ?_⟩
  have hzone := hnext (State.firstOfClass_eq_none hunclaimed hno)
  refine ⟨fun t ht => ?_, fun hno => ?_⟩
  · have hfirst : (firstTile fun t => e.covers t && aboveLimit speed (s.params.zoneLimit (s.tile t).speedClass)) = some t :=
      firstTile_eq_some_iff.mpr ((isFirst_congr (fun z => by rw [hfast]; simp) t).mp ht)
    rw [← hfirst]
    exact hzone.trans (if_pos ((State.aboveLimit_lowestZone speed).mpr ⟨t, (hfast t).mp ht.1⟩))
  · refine hzone.trans (if_neg fun habove => hno ?_)
    obtain ⟨t, ht⟩ := (State.aboveLimit_lowestZone speed).mp habove
    exact ⟨t, (hfast t).mpr ht⟩

/-! ### The result of an evaluation (R35 to R37) -/

/-- A probe whose envelope is computed is CLEAR or in breach. -/
theorem State.probeResult_cases (s : State) (x : Arm) (e : Envelope) (v : Nat) :
    (s.probeResult x e v).1 = .clear ∨ ∃ c, (s.probeResult x e v).1 = .breach c := by
  unfold State.probeResult
  split
  · exact .inr ⟨_, rfl⟩
  · split
    · exact .inr ⟨_, rfl⟩
    · split
      · exact .inr ⟨_, rfl⟩
      · split
        · exact .inr ⟨_, rfl⟩
        · split
          · exact .inr ⟨_, rfl⟩
          · exact .inl rfl

/-- An evaluation within VMAX. -/
theorem State.evaluateProbes_slow {s : State} {x : Arm} {tool : Probe} {elbow : Option Probe}
    (htool : tool.speed ≤ (s.params.arm x).vmax) (helbow : ∀ q, elbow = some q → q.speed ≤ (s.params.arm x).vmax)
    (count : BitVec 4) (m : Nat) :
    s.evaluateProbes x count m tool elbow =
      let te := s.probeEntry x (s.params.arm x).toolRadius m tool
      let be := elbow.map fun q => s.probeEntry x (s.params.arm x).elbowRadius m q
      let v := verdict te be
      { count := count, missed := m, result := v.map fun c => c.1, kind := v.map fun c => c.2.1,
        tile := v.bind fun c => c.2.2,
        foreign := s.foreignOwners x fun t => te.covers t || (be.any fun e => e.covers t),
        retained := false, tool := te, elbow := be } := by
  refine if_neg fun hfast => ?_
  obtain h | ⟨q, hq, h⟩ : (s.params.arm x).vmax < tool.speed ∨ ∃ q, elbow = some q ∧ (s.params.arm x).vmax < q.speed := by
    simpa [Option.any_eq_true] using hfast
  · omega
  · have := helbow q hq
    omega

/-- What a tool probe and an elbow probe give as the result of the evaluation (R35, R36). -/
theorem verdict_spec {te : ProbeEntry} {be : Option ProbeEntry} (hte : te.result = .clear ∨ ∃ c, te.result = .breach c)
    (hbe : ∀ b, be = some b → b.result = .clear ∨ ∃ c, b.result = .breach c) :
    (verdict te be = none ↔ te.result = .clear ∧ ∀ b, be = some b → b.result = .clear) ∧
    ∀ v, verdict te be = some v →
      (te.result = .breach v.1 ∧ v.2.1 = .tool ∧ v.2.2 = te.tile ∧
        (∀ b d, be = some b → b.result = .breach d → v.1.priority ≤ d.priority)) ∨
      (∃ b, be = some b ∧ b.result = .breach v.1 ∧ v.2.1 = .elbow ∧ v.2.2 = b.tile ∧
        ∀ d, te.result = .breach d → v.1.priority < d.priority) := by
  cases be with
  | none =>
    obtain h | ⟨c, h⟩ := hte
    · simp [verdict, h, ProbeResult.cause]
    · simp [verdict, h, ProbeResult.cause]
  | some b =>
    obtain h | ⟨c, h⟩ := hte
    · obtain hb | ⟨d, hb⟩ := hbe b rfl
      · simp [verdict, h, hb, ProbeResult.cause]
      · simp [verdict, h, hb, ProbeResult.cause]
    · obtain hb | ⟨d, hb⟩ := hbe b rfl
      · have hverdict : verdict te (some b) = some (c, .tool, te.tile) := by simp [verdict, h, hb, ProbeResult.cause]
        rw [hverdict, h]
        refine ⟨by simp, fun v hv => .inl ?_⟩
        obtain rfl := Option.some.inj hv
        exact ⟨rfl, rfl, rfl, fun b' e hb' he => by cases hb'; rw [hb] at he; cases he⟩
      · have hverdict : verdict te (some b) =
            if d.priority < c.priority then some (d, .elbow, b.tile) else some (c, .tool, te.tile) := by
          simp [verdict, h, hb, ProbeResult.cause]
        rw [hverdict, h]
        split_ifs with hlt
        · refine ⟨by simp, fun v hv => .inr ?_⟩
          obtain rfl := Option.some.inj hv
          exact ⟨b, rfl, hb, rfl, rfl, fun e he => by cases he; exact hlt⟩
        · refine ⟨by simp, fun v hv => .inl ?_⟩
          obtain rfl := Option.some.inj hv
          exact ⟨rfl, rfl, rfl, fun b' e hb' he => by cases hb'; rw [hb] at he; cases he; exact not_lt.mp hlt⟩

theorem PartySet.has_of (f : Party → Bool) (p : Party) : (PartySet.of f).has p = f p := by cases p <;> rfl

/-- Settles O29, by the results of the two probes. -/
theorem evaluationResult : Obligations.EvaluationResult := by
  unfold Obligations.EvaluationResult
  intro s x count m tool elbow htool helbow a e entry te
  have he : e = _ := State.evaluateProbes_slow htool helbow count m
  have hte : te.result = .clear ∨ ∃ c, te.result = .breach c := State.probeResult_cases ..
  have hbe : ∀ b, elbow.map (entry a.elbowRadius) = some b → b.result = .clear ∨ ∃ c, b.result = .breach c := by
    intro b hb
    obtain ⟨q, -, rfl⟩ := Option.map_eq_some_iff.mp hb
    exact State.probeResult_cases ..
  obtain ⟨hnone, hsome⟩ := verdict_spec hte hbe
  have hresult : e.result = (verdict te (elbow.map (entry a.elbowRadius))).map fun c => c.1 := by rw [he]; rfl
  have hkind : e.kind = (verdict te (elbow.map (entry a.elbowRadius))).map fun c => c.2.1 := by rw [he]; rfl
  have htile : e.tile = (verdict te (elbow.map (entry a.elbowRadius))).bind fun c => c.2.2 := by rw [he]; rfl
  have helbowOf : e.elbow = elbow.map (entry a.elbowRadius) := by rw [he]; rfl
  refine ⟨by rw [he]; rfl, helbowOf, rfl, by rw [he], by rw [he], by rw [he], ?_, fun hclear => ?_, fun c hc => ?_, fun p => ?_⟩
  · rw [hresult, Option.map_eq_none_iff, hnone, helbowOf]
  · rw [hresult, Option.map_eq_none_iff] at hclear
    rw [hkind, htile, hclear]
    exact ⟨rfl, rfl⟩
  · rw [hresult] at hc
    obtain ⟨v, hv, rfl⟩ := Option.map_eq_some_iff.mp hc
    rw [hkind, htile, helbowOf, hv]
    obtain ⟨hbreach, hk, ht, hlast⟩ | ⟨b, hb, hbreach, hk, ht, hlast⟩ := hsome v hv
    · exact .inl ⟨hbreach, congrArg some hk, ht, hlast⟩
    · exact .inr ⟨b, hb, hbreach, congrArg some hk, ht, hlast⟩
  · have hcovers (t : Tile) : e.covers t = (te.covers t || (elbow.map (entry a.elbowRadius)).any fun b => b.covers t) := by
      have htoolOf : e.tool = te := by rw [he]; rfl
      unfold Evaluation.covers
      rw [htoolOf, helbowOf]
      cases elbow <;> rfl
    have hforeign : e.foreign = s.foreignOwners x e.covers := by
      rw [show e.covers = _ from funext hcovers, he]; rfl
    rw [hforeign, State.foreignOwners, PartySet.has_of]
    simp

end Sys2Proof.Machine
end

section
/-! SUPPORT. The laws of the claim table: which changes of its slots keep them. -/

namespace Sys2Proof.Machine

open Sys2Proof

/-! ### Links (R103, R107) -/

/-- What a link of slot `k` of a party to its slot `j` says: a PENDING target names a HELD source without a link while no
claim of the party is DRAINING, and a HELD target and a DRAINING source of an arm name each other. -/
structure State.LinkTo (s : State) (p : Party) (k j : SlotNo) : Prop where
  ofPending : (s.slot p k).state = .pending →
    (s.slot p j).state = .held ∧ (s.slot p j).link = none ∧ ∀ i, (s.slot p i).state ≠ .draining
  ofHeld : (s.slot p k).state = .held → (s.slot p j).state = .draining ∧ (s.slot p j).link = some k
  ofDraining : (s.slot p k).state = .draining →
    p ≠ .C ∧ (s.slot p j).state = .held ∧ (s.slot p j).link = some k

theorem State.linkLaw_iff {s : State} {p : Party} {k : SlotNo} :
    s.LinkLaw p k ↔ ∀ j, (s.slot p k).link = some j → s.LinkTo p k j := by
  unfold State.LinkLaw
  constructor
  · intro h j hj
    cases hc : s.slot p k with
    | empty => simp [hc, Claim.link] at hj
    | pending r w l =>
      obtain rfl : l = some j := by simpa [hc, Claim.link] using hj
      rw [hc] at h
      exact ⟨fun _ => h, by simp [hc, Claim.state], by simp [hc, Claim.state]⟩
    | held r l =>
      obtain rfl : l = some j := by simpa [hc, Claim.link] using hj
      rw [hc] at h
      exact ⟨by simp [hc, Claim.state], fun _ => h, by simp [hc, Claim.state]⟩
    | draining r t =>
      obtain rfl : t = j := by simpa [hc, Claim.link] using hj
      rw [hc] at h
      exact ⟨by simp [hc, Claim.state], by simp [hc, Claim.state], fun _ => h⟩
  · intro h
    cases hc : s.slot p k with
    | empty => trivial
    | pending r w l =>
      cases l with
      | none => trivial
      | some j => exact (h j (by rw [hc]; rfl)).ofPending (by rw [hc]; rfl)
    | held r l =>
      cases l with
      | none => trivial
      | some j => exact (h j (by rw [hc]; rfl)).ofHeld (by rw [hc]; rfl)
    | draining r t => exact (h t (by rw [hc]; rfl)).ofDraining (by rw [hc]; rfl)

/-- A claim of a party stands outside SETUP alone, that of an arm while the arm is not OFFLINE. -/
def State.MayHold (s : State) (p : Party) : Prop := s.mode ≠ .setup ∧ ∀ x ∈ p.arm, s.guardState x ≠ .offline

/-- The laws of the ordinary slots of the claim table. -/
structure State.SlotsLaw (s : State) : Prop where
  rects : ∀ p k, ∀ r ∈ (s.slot p k).rect, s.params.RectLaw r
  links : ∀ p k j, (s.slot p k).link = some j → s.LinkTo p k j
  standing : ∀ p k, (s.slot p k).state ≠ .empty → s.MayHold p
  oneDrain : ∀ p, s.OneDrain p
  onePending : ∀ p j k, (s.slot p j).state = .pending → (s.slot p k).state = .pending → j = k

theorem State.claimLaw_iff {s : State} (horder : s.QueueOrder) : s.ClaimLaw ↔ s.SlotsLaw ∧ ∀ x, s.TripLaw x := by
  have hpending (p : Party) (k : SlotNo) (h : (s.slot p k).state = .pending) : (⟨p, k⟩ : ClaimName) ∈ s.queue := by
    rw [horder.pending]
    unfold State.arrivalOf
    revert h
    cases s.slot p k <;> simp [Claim.state, Claim.arrival]
  constructor
  · rintro ⟨hslots, hdrain, htrip⟩
    refine ⟨⟨fun p k => (hslots p k).1, fun p k => State.linkLaw_iff.mp (hslots p k).2.1, fun p k => (hslots p k).2.2, hdrain,
      fun p j k hj hk => ?_⟩, htrip⟩
    exact congrArg ClaimName.slot (horder.eq_of_party (hpending p j hj) (hpending p k hk) rfl)
  · rintro ⟨hlaw, htrip⟩
    exact ⟨fun p k => ⟨hlaw.rects p k, State.linkLaw_iff.mpr (hlaw.links p k), hlaw.standing p k⟩, hlaw.oneDrain, htrip⟩

theorem Claim.state_eq_empty {c : Claim} : c.state = .empty ↔ c = .empty := by cases c <;> simp [Claim.state]

theorem Claim.link_unlink (k : SlotNo) (c : Claim) : (c.unlink k).link = if c.link = some k then none else c.link := by
  match c with
  | .empty => rfl
  | .pending r w none => rfl
  | .held r none => rfl
  | .pending r w (some j) => by_cases h : j = k <;> simp [Claim.unlink, Claim.link, h]
  | .held r (some j) => by_cases h : j = k <;> simp [Claim.unlink, Claim.link, h]
  | .draining r j => by_cases h : j = k <;> simp [Claim.unlink, Claim.link, h]

theorem Claim.rect_unlink (k : SlotNo) (c : Claim) : (c.unlink k).rect = c.rect := by
  match c with
  | .empty => rfl
  | .pending r w none => rfl
  | .held r none => rfl
  | .pending r w (some j) => rfl
  | .held r (some j) => rfl
  | .draining r j => by_cases h : j = k <;> simp [Claim.unlink, Claim.rect, h]

theorem Claim.unlink_of_link_ne {k : SlotNo} {c : Claim} (h : c.link ≠ some k) : c.unlink k = c := by
  match c with
  | .empty => rfl
  | .pending r w none => rfl
  | .held r none => rfl
  | .pending r w (some j) => have hj : j ≠ k := fun e => h (congrArg some e); simp [Claim.unlink, hj]
  | .held r (some j) => have hj : j ≠ k := fun e => h (congrArg some e); simp [Claim.unlink, hj]
  | .draining r j => have hj : j ≠ k := fun e => h (congrArg some e); simp [Claim.unlink, hj]

/-- A claim whose link is cleared is DRAINING, PENDING or EMPTY only if it was. -/
theorem Claim.state_unlink_cases (k : SlotNo) (c : Claim) :
    (c.unlink k).state = c.state ∨ c.state = .draining ∧ (c.unlink k).state = .held := by
  rw [Claim.unlink_state]
  split_ifs with h
  · exact .inr ⟨h.2, rfl⟩
  · exact .inl rfl

theorem Claim.rect_of_heldRect {c : Claim} {r : Rect} (h : c.heldRect = some r) : c.rect = some r := by
  cases c <;> simp_all [Claim.heldRect, Claim.rect]

theorem Claim.heldRect_isSome {c : Claim} : c.heldRect.isSome = true ↔ c.state = .held ∨ c.state = .draining := by
  cases c <;> simp [Claim.heldRect, Claim.state]

/-- Two claims that differ in the fields of their wait alone. -/
structure Claim.SameShape (c d : Claim) : Prop where
  state : c.state = d.state
  link : c.link = d.link
  rect : c.rect = d.rect

namespace Claim.SameShape

variable {c d : Claim}

@[refl] theorem refl (c : Claim) : c.SameShape c := ⟨rfl, rfl, rfl⟩

theorem heldRect (h : c.SameShape d) : c.heldRect = d.heldRect := by
  obtain ⟨hstate, -, hrect⟩ := h
  revert hstate hrect
  cases c <;> cases d <;> simp [Claim.state, Claim.rect, Claim.heldRect]

theorem of_pending {r : Rect} {w : Waiting} {l : Option SlotNo} (h : (Claim.pending r w l).SameShape d) :
    ∃ w', d = .pending r w' l := by
  obtain ⟨hstate, hlink, hrect⟩ := h
  cases d with
  | pending q w' m =>
    obtain rfl : r = q := Option.some.inj hrect
    obtain rfl : l = m := hlink
    exact ⟨w', rfl⟩
  | _ => cases hstate

end Claim.SameShape

namespace State.SlotsLaw

variable {s t : State}

/-- Nothing links to a slot that is neither HELD nor DRAINING. -/
theorem link_ne (h : s.SlotsLaw) {p : Party} {k : SlotNo} (hheld : (s.slot p k).state ≠ .held)
    (hdraining : (s.slot p k).state ≠ .draining) (j : SlotNo) : (s.slot p j).link ≠ some k := by
  intro hj
  have hlink := h.links p j k hj
  cases hstate : (s.slot p j).state with
  | empty => rw [Claim.state_eq_empty] at hstate; simp [hstate, Claim.link] at hj
  | pending => exact hheld (hlink.ofPending hstate).1
  | held => exact hdraining (hlink.ofHeld hstate).1
  | draining => exact hheld (hlink.ofDraining hstate).2.1

/-- What keeps the shape of every claim and the parameters, and lets every party that holds a claim hold it. -/
theorem of_shape (h : s.SlotsLaw) (hslot : ∀ p k, (t.slot p k).SameShape (s.slot p k)) (hparams : t.params = s.params)
    (hmay : ∀ p, (∃ k, s.slot p k ≠ .empty) → s.MayHold p → t.MayHold p) : t.SlotsLaw where
  rects p k r hr := by rw [hparams]; exact h.rects p k r ((hslot p k).rect ▸ hr)
  links p k j hj := by
    rw [(hslot p k).link] at hj
    obtain ⟨hpending, hheld, hdraining⟩ := h.links p k j hj
    constructor <;> simp only [(hslot _ _).state, (hslot _ _).link] <;> assumption
  standing p k hk := by
    rw [(hslot p k).state] at hk
    exact hmay p ⟨k, fun he => hk (Claim.state_eq_empty.mpr he)⟩ (h.standing p k hk)
  oneDrain p j k hj hk := h.oneDrain p j k ((hslot p j).state ▸ hj) ((hslot p k).state ▸ hk)
  onePending p j k hj hk := h.onePending p j k ((hslot p j).state ▸ hj) ((hslot p k).state ▸ hk)

theorem of_same (h : s.SlotsLaw) (hslot : ∀ p k, t.slot p k = s.slot p k) (hparams : t.params = s.params)
    (hmay : ∀ p, (∃ k, s.slot p k ≠ .empty) → s.MayHold p → t.MayHold p) : t.SlotsLaw :=
  h.of_shape (fun p k => hslot p k ▸ .refl _) hparams hmay

theorem of_empty (h : ∀ p k, s.slot p k = .empty) : s.SlotsLaw where
  rects p k r hr := by rw [h] at hr; cases hr
  links p k j hj := by rw [h] at hj; cases hj
  standing p k hk := by rw [h] at hk; exact absurd rfl hk
  oneDrain p j k hj := by rw [h] at hj; cases hj
  onePending p j k hj := by rw [h] at hj; cases hj

/-- A slot to which nothing links takes a claim that is not DRAINING. -/
theorem of_setSlot (h : s.SlotsLaw) {p : Party} {k : SlotNo} {c : Claim} (hc : t.slot p k = c)
    (hothers : ∀ q j, q ≠ p ∨ j ≠ k → t.slot q j = s.slot q j) (hparams : t.params = s.params)
    (hmay : ∀ q, s.MayHold q → t.MayHold q) (hold : (s.slot p k).state ≠ .held ∧ (s.slot p k).state ≠ .draining)
    (hrect : ∀ r ∈ c.rect, s.params.RectLaw r) (hdraining : c.state ≠ .draining)
    (hlink : ∀ j, c.link = some j → c.state = .pending ∧ j ≠ k ∧ (s.slot p j).state = .held ∧ (s.slot p j).link = none ∧
      ∀ i, (s.slot p i).state ≠ .draining)
    (hstanding : c.state ≠ .empty → t.MayHold p)
    (hpending : c.state = .pending → ∀ j ≠ k, (s.slot p j).state ≠ .pending) : t.SlotsLaw := by
  have hnolink := h.link_ne hold.1 hold.2
  have hdrains (q : Party) (i : SlotNo) (hi : (t.slot q i).state = .draining) :
      t.slot q i = s.slot q i := by
    by_cases hk : q = p ∧ i = k
    · obtain ⟨rfl, rfl⟩ := hk; rw [hc] at hi; exact absurd hi hdraining
    · exact hothers q i (by tauto)
  refine ⟨fun q j r hr => ?_, fun q j i hi => ?_, fun q j hj => ?_, fun q i j hi hj => ?_, fun q i j hi hj => ?_⟩
  · rw [hparams]
    by_cases hk : q = p ∧ j = k
    · obtain ⟨rfl, rfl⟩ := hk; exact hrect r (hc ▸ hr)
    · exact h.rects q j r (hothers q j (by tauto) ▸ hr)
  · by_cases hk : q = p ∧ j = k
    · obtain ⟨rfl, rfl⟩ := hk
      obtain ⟨hstate, hij, hsource, hnone, hnodrain⟩ := hlink i (hc ▸ hi)
      have hsame := hothers q i (.inr hij)
      refine ⟨fun _ => ⟨hsame ▸ hsource, hsame ▸ hnone, fun m hm => hnodrain m (hdrains q m hm ▸ hm)⟩, fun hheld => ?_,
        fun hdrain => ?_⟩
      · rw [hc, hstate] at hheld; cases hheld
      · rw [hc, hstate] at hdrain; cases hdrain
    · have hj := hothers q j (by tauto)
      rw [hj] at hi
      have hik : q ≠ p ∨ i ≠ k := by
        by_contra hnot
        push Not at hnot
        obtain ⟨rfl, rfl⟩ := hnot
        exact hnolink j hi
      obtain ⟨hp, hh, hd⟩ := h.links q j i hi
      have hsame := hothers q i hik
      refine ⟨fun hs => ?_, fun hs => ?_, fun hs => ?_⟩
      · obtain ⟨h1, h2, h3⟩ := hp (hj ▸ hs)
        exact ⟨hsame ▸ h1, hsame ▸ h2, fun m hm => h3 m (hdrains q m hm ▸ hm)⟩
      · rw [hsame]; exact hh (hj ▸ hs)
      · rw [hsame]; exact hd (hj ▸ hs)
  · by_cases hk : q = p ∧ j = k
    · obtain ⟨rfl, rfl⟩ := hk; exact hstanding (hc ▸ hj)
    · exact hmay q (h.standing q j (hothers q j (by tauto) ▸ hj))
  · exact h.oneDrain q i j (hdrains q i hi ▸ hi) (hdrains q j hj ▸ hj)
  · by_cases hik : q = p ∧ i = k
    · by_cases hjk : q = p ∧ j = k
      · exact hik.2.trans hjk.2.symm
      · obtain ⟨rfl, rfl⟩ := hik
        have hne : j ≠ i := fun he => hjk ⟨rfl, he⟩
        exact absurd (hothers q j (.inr hne) ▸ hj) (hpending (hc ▸ hi) j hne)
    · by_cases hjk : q = p ∧ j = k
      · obtain ⟨rfl, rfl⟩ := hjk
        have hne : i ≠ j := fun he => hik ⟨rfl, he⟩
        exact absurd (hothers q i (.inr hne) ▸ hi) (hpending (hc ▸ hj) i hne)
      · exact h.onePending q i j (hothers q i (by tauto) ▸ hi) (hothers q j (by tauto) ▸ hj)

/-- A release: the slot becomes EMPTY and the links to it are cleared (R69). -/
theorem of_release (h : s.SlotsLaw) {p : Party} {k : SlotNo}
    (hslot : ∀ j, t.slot p j = if j = k then .empty else (s.slot p j).unlink k)
    (hothers : ∀ q j, q ≠ p → t.slot q j = s.slot q j) (hparams : t.params = s.params)
    (hmay : ∀ q, s.MayHold q → t.MayHold q) : t.SlotsLaw := by
  have hleft {j : SlotNo} (hj : j ≠ k) : t.slot p j = (s.slot p j).unlink k := (hslot j).trans (if_neg hj)
  have hempty : t.slot p k = .empty := (hslot k).trans (if_pos rfl)
  have hdrains (q : Party) (j : SlotNo) (hj : (t.slot q j).state = .draining) : (s.slot q j).state = .draining := by
    by_cases hq : q = p
    · subst hq
      by_cases hk : j = k
      · subst hk; rw [hempty] at hj; cases hj
      · rw [hleft hk] at hj
        obtain hsame | ⟨hdraining, -⟩ := (s.slot q j).state_unlink_cases k
        · exact hsame ▸ hj
        · exact hdraining
    · exact hothers q j hq ▸ hj
  have hstates (q : Party) (j : SlotNo) (hj : (t.slot q j).state ≠ .empty) : (s.slot q j).state ≠ .empty := by
    by_cases hq : q = p
    · subst hq
      by_cases hk : j = k
      · subst hk; rw [hempty] at hj; exact absurd rfl hj
      · rw [hleft hk] at hj
        obtain hsame | ⟨hdraining, -⟩ := (s.slot q j).state_unlink_cases k
        · exact hsame ▸ hj
        · simp [hdraining]
    · exact hothers q j hq ▸ hj
  have hwaits (q : Party) (j : SlotNo) (hj : (t.slot q j).state = .pending) : (s.slot q j).state = .pending := by
    by_cases hq : q = p
    · subst hq
      by_cases hk : j = k
      · subst hk; rw [hempty] at hj; cases hj
      · rw [hleft hk] at hj
        obtain hsame | ⟨-, hheld⟩ := (s.slot q j).state_unlink_cases k
        · exact hsame ▸ hj
        · rw [hheld] at hj; cases hj
    · exact hothers q j hq ▸ hj
  refine ⟨fun q j r hr => ?_, fun q j i hi => ?_, fun q j hj => hmay q (h.standing q j (hstates q j hj)),
    fun q i j hi hj => h.oneDrain q i j (hdrains q i hi) (hdrains q j hj),
    fun q i j hi hj => h.onePending q i j (hwaits q i hi) (hwaits q j hj)⟩
  · rw [hparams]
    by_cases hq : q = p
    · subst hq
      by_cases hk : j = k
      · subst hk; rw [hempty] at hr; cases hr
      · rw [hleft hk, Claim.rect_unlink] at hr; exact h.rects q j r hr
    · exact h.rects q j r (hothers q j hq ▸ hr)
  · by_cases hq : q = p
    · subst hq
      by_cases hk : j = k
      · subst hk; rw [hempty] at hi; cases hi
      · rw [hleft hk, Claim.link_unlink] at hi
        have hne : (s.slot q j).link ≠ some k := fun he => by simp [he] at hi
        rw [if_neg hne] at hi
        have hik : i ≠ k := fun he => hne (he ▸ hi)
        obtain ⟨hp, hh, hd⟩ := h.links q j i hi
        have hsame : t.slot q j = s.slot q j := by rw [hleft hk, Claim.unlink_of_link_ne hne]
        have hkeeps (hlink : (s.slot q i).link ≠ some k) : t.slot q i = s.slot q i := by
          rw [hleft hik, Claim.unlink_of_link_ne hlink]
        refine ⟨fun hs => ?_, fun hs => ?_, fun hs => ?_⟩ <;> rw [hsame] at hs
        · obtain ⟨h1, h2, h3⟩ := hp hs
          rw [hkeeps (by simp [h2])]
          exact ⟨h1, h2, fun m hm => h3 m (hdrains q m hm)⟩
        · rw [hkeeps (by simpa [(hh hs).2] using hk)]; exact hh hs
        · rw [hkeeps (by simpa [(hd hs).2.2] using hk)]; exact hd hs
    · have hsame (m : SlotNo) := hothers q m hq
      rw [hsame] at hi
      obtain ⟨hp, hh, hd⟩ := h.links q j i hi
      constructor <;> simp only [hsame] <;> assumption

/-- The grant of an arm's shift target: target and source name each other (R67, R107). -/
theorem of_grantShift (h : s.SlotsLaw) {p : Party} {k j : SlotNo} {r q : Rect} {w : Waiting} (hp : p ≠ .C)
    (htarget : s.slot p k = .pending r w (some j)) (hsource : (s.slot p j).heldRect = some q)
    (hk : t.slot p k = .held r (some j)) (hj : t.slot p j = .draining q k)
    (hothers : ∀ a b, a ≠ p ∨ b ≠ k ∧ b ≠ j → t.slot a b = s.slot a b) (hparams : t.params = s.params)
    (hmay : ∀ a, s.MayHold a → t.MayHold a) : t.SlotsLaw := by
  obtain ⟨hheld, hnone, hnodrain⟩ := (h.links p k j (by rw [htarget]; rfl)).ofPending (by rw [htarget]; rfl)
  have hstateK : (s.slot p k).state = .pending := by rw [htarget]; rfl
  have hjk : j ≠ k := fun he => by rw [he, hstateK] at hheld; cases hheld
  have hnolink := h.link_ne (p := p) (k := k) (by simp [hstateK]) (by simp [hstateK])
  have hnosource (i : SlotNo) (hi : i ≠ k) : (s.slot p i).link ≠ some j := fun hlink => by
    have hl := h.links p i j hlink
    cases hstate : (s.slot p i).state with
    | empty => rw [Claim.state_eq_empty] at hstate; simp [hstate, Claim.link] at hlink
    | pending => exact hi (h.onePending p i k hstate hstateK)
    | held => have := (hl.ofHeld hstate).1; rw [hheld] at this; cases this
    | draining => exact hnodrain i hstate
  have hmayP : t.MayHold p := hmay p (h.standing p k (by simp [hstateK]))
  refine ⟨fun a b z hz => ?_, fun a b c hc => ?_, fun a b hb => ?_, fun a b c hb hc => ?_, fun a b c hb hc => ?_⟩
  · rw [hparams]
    by_cases ha : a ≠ p ∨ b ≠ k ∧ b ≠ j
    · exact h.rects a b z (hothers a b ha ▸ hz)
    · obtain ⟨rfl, hb⟩ : a = p ∧ (b = k ∨ b = j) := by tauto
      obtain rfl | rfl := hb
      · exact h.rects a b z (by rw [htarget]; rw [hk] at hz; exact hz)
      · exact h.rects a b z (by rw [Claim.rect_of_heldRect hsource]; rw [hj] at hz; exact hz)
  · by_cases ha : a ≠ p ∨ b ≠ k ∧ b ≠ j
    · have hsame := hothers a b ha
      rw [hsame] at hc
      obtain ⟨h1, h2, h3⟩ := h.links a b c hc
      by_cases hap : a = p
      · subst hap
        have hb : b ≠ k ∧ b ≠ j := ha.resolve_left (by simp)
        have hck : c ≠ k := fun he => hnolink b (he ▸ hc)
        have hcj : c ≠ j := fun he => hnosource b hb.1 (he ▸ hc)
        have hsameC := hothers a c (.inr ⟨hck, hcj⟩)
        refine ⟨fun hs => ?_, fun hs => ?_, fun hs => ?_⟩ <;> rw [hsame] at hs
        · exact absurd (h.onePending a b k hs hstateK) hb.1
        · rw [hsameC]; exact h2 hs
        · rw [hsameC]; exact h3 hs
      · have hsameA (m : SlotNo) := hothers a m (.inl hap)
        constructor <;> simp only [hsameA] <;> assumption
    · obtain ⟨rfl, hb⟩ : a = p ∧ (b = k ∨ b = j) := by tauto
      obtain rfl | rfl := hb
      · obtain rfl : j = c := by rw [hk] at hc; exact Option.some.inj hc
        refine ⟨fun hs => ?_, fun _ => by rw [hj]; exact ⟨rfl, rfl⟩, fun hs => ?_⟩ <;> (rw [hk] at hs; cases hs)
      · obtain rfl : k = c := by rw [hj] at hc; exact Option.some.inj hc
        refine ⟨fun hs => ?_, fun hs => ?_, fun _ => by rw [hk]; exact ⟨hp, rfl, rfl⟩⟩ <;> (rw [hj] at hs; cases hs)
  · by_cases ha : a ≠ p ∨ b ≠ k ∧ b ≠ j
    · exact hmay a (h.standing a b (hothers a b ha ▸ hb))
    · obtain ⟨rfl, -⟩ : a = p ∧ (b = k ∨ b = j) := by tauto
      exact hmayP
  · have hdrain (b : SlotNo) (hb : (t.slot a b).state = .draining) (hap : a = p) : b = j := by
      subst hap
      by_contra hne
      by_cases hbk : b = k
      · rw [hbk, hk] at hb; cases hb
      · exact hnodrain b (hothers a b (.inr ⟨hbk, hne⟩) ▸ hb)
    by_cases hap : a = p
    · rw [hdrain b hb hap, hdrain c hc hap]
    · exact h.oneDrain a b c (hothers a b (.inl hap) ▸ hb) (hothers a c (.inl hap) ▸ hc)
  · have hsame (b : SlotNo) (hb : (t.slot a b).state = .pending) : t.slot a b = s.slot a b := by
      refine hothers a b ?_
      by_contra hnot
      obtain ⟨rfl, rfl | rfl⟩ : a = p ∧ (b = k ∨ b = j) := by tauto
      · rw [hk] at hb; cases hb
      · rw [hj] at hb; cases hb
    exact h.onePending a b c (hsame b hb ▸ hb) (hsame c hc ▸ hc)

end State.SlotsLaw

end Sys2Proof.Machine
end

section
/-! SUPPORT. The laws of the tiles: which changes of holds keep them. -/

namespace Sys2Proof.Machine

open Sys2Proof

/-! ### Hold counts (R6) -/

/-- What a claim adds to the hold count of a tile. -/
def Claim.holdsTile (c : Claim) (t : Tile) : Nat := if (c.heldRect.any fun r => r.contains t) = true then 1 else 0

theorem Claim.holdsTile_congr {c d : Claim} (h : c.heldRect = d.heldRect) (t : Tile) : c.holdsTile t = d.holdsTile t := by
  rw [Claim.holdsTile, Claim.holdsTile, h]

theorem Claim.holdsTile_of_none {c : Claim} (h : c.heldRect = none) (t : Tile) : c.holdsTile t = 0 := by
  simp [Claim.holdsTile, h]

/-- What the trip claim of a party adds to the hold count of a tile. -/
def State.tripHolds (s : State) (p : Party) (t : Tile) : Nat := p.arm.elim 0 fun x => if s.inTrip x t = true then 1 else 0

theorem State.holdsOf_eq (s : State) (p : Party) (t : Tile) :
    s.holdsOf p t = (s.slot p 0).holdsTile t + (s.slot p 1).holdsTile t + (s.slot p 2).holdsTile t +
      (s.slot p 3).holdsTile t + s.tripHolds p t := by
  have hsplit : s.holdsOf p t =
      (slotNos.countP fun k => (s.slot p k).heldRect.any fun r => r.contains t) + s.tripHolds p t := by
    unfold State.holdsOf State.tripHolds
    cases p.arm <;> rfl
  rw [hsplit]
  simp only [slotNos, List.countP_cons, List.countP_nil, Claim.holdsTile]
  omega

theorem State.holdsOf_congr {s u : State} {p : Party} {t : Tile} (hslot : ∀ k, (u.slot p k).heldRect = (s.slot p k).heldRect)
    (htrip : u.tripHolds p t = s.tripHolds p t) : u.holdsOf p t = s.holdsOf p t := by
  simp only [State.holdsOf_eq, htrip, Claim.holdsTile_congr (hslot _)]

/-- The hold count after one slot of a party has changed. -/
theorem State.holdsOf_slot {s u : State} {p : Party} {t : Tile} (k : SlotNo)
    (hslot : ∀ j ≠ k, (u.slot p j).heldRect = (s.slot p j).heldRect) (htrip : u.tripHolds p t = s.tripHolds p t) :
    u.holdsOf p t + (s.slot p k).holdsTile t = s.holdsOf p t + (u.slot p k).holdsTile t := by
  have hothers (j : SlotNo) (hj : j ≠ k) := Claim.holdsTile_congr (hslot j hj) t
  rw [State.holdsOf_eq, State.holdsOf_eq, htrip]
  fin_cases k
  · rw [hothers 1 (by decide), hothers 2 (by decide), hothers 3 (by decide)]; simp only [Fin.zero_eta]; omega
  · rw [hothers 0 (by decide), hothers 2 (by decide), hothers 3 (by decide)]; simp only [Fin.mk_one]; omega
  · rw [hothers 0 (by decide), hothers 1 (by decide), hothers 3 (by decide)]; simp only [Fin.reduceFinMk]; omega
  · rw [hothers 0 (by decide), hothers 1 (by decide), hothers 2 (by decide)]; simp only [Fin.reduceFinMk]; omega

theorem State.tripHolds_congr {s u : State} {p : Party} (h : ∀ x, u.tripTiles x = s.tripTiles x) (t : Tile) :
    u.tripHolds p t = s.tripHolds p t := by
  unfold State.tripHolds State.inTrip
  cases p.arm <;> simp [h]

/-- The hold count after the trip claim of an arm has changed. -/
theorem State.holdsOf_trip {s u : State} (x : Arm) {t : Tile}
    (hslot : ∀ k, (u.slot x.party k).heldRect = (s.slot x.party k).heldRect) :
    u.holdsOf x.party t + (if s.inTrip x t = true then 1 else 0) =
      s.holdsOf x.party t + if u.inTrip x t = true then 1 else 0 := by
  have hheld (k : SlotNo) := Claim.holdsTile_congr (hslot k) t
  have htrip (v : State) : v.tripHolds x.party t = if v.inTrip x t = true then 1 else 0 := by
    rw [State.tripHolds, Arm.arm_party]; rfl
  rw [State.holdsOf_eq, State.holdsOf_eq, htrip, htrip]
  simp only [hheld]
  omega

/-! ### The laws of the tiles -/

/-- The laws of the tiles and of the closing-tile count; every tile of a PENDING claim is OPEN (R6, R7, R16, R94). -/
structure State.GroundLaw (s : State) : Prop where
  tiles : ∀ t, s.TileLaw t
  closing : s.ClosingLaw
  opened : ∀ p k r w l, s.slot p k = .pending r w l → ∀ t, r.contains t = true → (s.tile t).service = .opened

theorem State.pendingOpen_iff {s : State} (horder : s.QueueOrder) : s.PendingOpen ↔
    ∀ p k r w l, s.slot p k = .pending r w l → ∀ t, r.contains t = true → (s.tile t).service = .opened := by
  constructor
  · intro h p k r w l hslot
    have hentry : (⟨p, k⟩ : ClaimName) ∈ s.queue := by
      rw [horder.pending, State.arrivalOf, hslot]; rfl
    exact h ⟨⟨p, k⟩, r, w, l⟩ (State.mem_waiters.mpr ⟨hentry, hslot⟩)
  · intro h w hw
    exact h _ _ _ _ _ (State.mem_waiters.mp hw).2

theorem State.closing_dropHolds (s : State) (f : Tile → Bool) :
    (s.dropHolds f).closing =
      s.closing - countTiles fun t => f t && (s.tile t).lastHold && (s.tile t).service == .closing := by
  unfold State.dropHolds State.lowerClosing
  dsimp only
  split <;> simp

namespace State.GroundLaw

variable {s t : State}

/-- What keeps the tiles, the hold counts and the closing-tile count; the tiles of its PENDING claims are OPEN. -/
theorem of_tiles (h : s.GroundLaw) (htile : ∀ z, t.tile z = s.tile z) (hholds : ∀ p z, t.holdsOf p z = s.holdsOf p z)
    (hclosing : t.closing = s.closing) (hactive : ∀ z, (s.tile z).owner ≠ none → t.params.active z = true)
    (hopened : ∀ p k r w l, t.slot p k = .pending r w l → ∀ z, r.contains z = true → (s.tile z).service = .opened) :
    t.GroundLaw := by
  refine ⟨fun z => ?_, ?_, fun p k r w l hslot z hz => ?_⟩
  · obtain ⟨hzero, hcount, -, hblocked, hclosed⟩ := h.tiles z
    have hinactive : t.params.active z = false → (s.tile z).owner = none := fun hz => by
      by_contra howner
      simp [hactive z howner] at hz
    unfold State.TileLaw
    simp only [htile, hholds]
    exact ⟨hzero, hcount, hinactive, hblocked, hclosed⟩
  · unfold State.ClosingLaw
    simp only [htile, hclosing]
    exact h.closing
  · rw [htile]
    exact hopened p k r w l hslot z hz

/-- What keeps the tiles, the hold counts and the closing-tile count, and makes no claim PENDING. -/
theorem of_same (h : s.GroundLaw) (htile : ∀ z, t.tile z = s.tile z) (hholds : ∀ p z, t.holdsOf p z = s.holdsOf p z)
    (hclosing : t.closing = s.closing) (hactive : ∀ z, (s.tile z).owner ≠ none → t.params.active z = true)
    (hpending : ∀ p k r w l, t.slot p k = .pending r w l → ∃ w' l', s.slot p k = .pending r w' l') : t.GroundLaw :=
  h.of_tiles htile hholds hclosing hactive fun p k r w l hslot => by
    obtain ⟨w', l', hslot'⟩ := hpending p k r w l hslot
    exact h.opened p k r w' l' hslot'

/-- What keeps the owners, the holds and the claims, with services under which a BLOCKED tile is free, a CLOSING tile is
owned and those of a PENDING claim are OPEN. -/
theorem of_services (h : s.GroundLaw) (htile : ∀ z, (t.tile z).owner = (s.tile z).owner ∧ (t.tile z).hold = (s.tile z).hold)
    (hholds : ∀ p z, t.holdsOf p z = s.holdsOf p z) (hparams : t.params = s.params)
    (hblocked : ∀ z, (t.tile z).service = .blocked → (s.tile z).owner = none)
    (hclosed : ∀ z, (t.tile z).service = .closing → (s.tile z).owner ≠ none) (hclosing : t.ClosingLaw)
    (hopened : ∀ p k r w l, t.slot p k = .pending r w l → ∀ z, r.contains z = true → (t.tile z).service = .opened) :
    t.GroundLaw where
  tiles z := by
    obtain ⟨hzero, hcount, hinactive, -, -⟩ := h.tiles z
    have hb := hblocked z
    have hc := hclosed z
    unfold State.TileLaw
    simp only [(htile z).1, (htile z).2, hholds, hparams]
    exact ⟨hzero, hcount, hinactive, hb, hc⟩
  closing := hclosing
  opened := hopened

/-- A tile map without holds and without CLOSING tiles, under an empty claim table. -/
theorem of_free (hslot : ∀ p k, t.slot p k = .empty) (htrip : ∀ x, t.tripTiles x = [])
    (htile : ∀ z, (t.tile z).owner = none ∧ (t.tile z).hold = 0 ∧ (t.tile z).service ≠ .closing) (hclosing : t.closing = 0) :
    t.GroundLaw where
  tiles z := by
    obtain ⟨howner, hhold, hservice⟩ := htile z
    have hcount (p : Party) : t.holdsOf p z = 0 := by
      simp [State.holdsOf_eq, hslot, Claim.holdsTile_of_none (c := .empty) rfl, State.tripHolds, State.inTrip, htrip,
        Option.elim]
      cases p.arm <;> rfl
    unfold State.TileLaw
    simp [howner, hhold, hcount, hservice]
  closing := by
    rw [State.ClosingLaw, hclosing, eq_comm, countTiles_eq_zero]
    intro z
    simpa using (htile z).2.2
  opened p k r w l hk := by rw [hslot] at hk; cases hk

/-- An owned tile is active. -/
theorem active (h : s.GroundLaw) {z : Tile} (hz : (s.tile z).owner ≠ none) : s.params.active z = true := by
  obtain ⟨-, -, hinactive, -, -⟩ := h.tiles z
  by_contra hnot
  exact hz (hinactive (by simpa using hnot))

/-- Holds of a party are added to active tiles that are its own, or free and OPEN. -/
theorem of_addHolds (h : s.GroundLaw) {p : Party} {f : Tile → Bool}
    (htile : ∀ z, t.tile z = if f z = true then { s.tile z with owner := some p, hold := (s.tile z).hold + 1 } else s.tile z)
    (hf : ∀ z, f z = true → s.params.active z = true ∧
      ((s.tile z).owner = some p ∨ (s.tile z).owner = none ∧ (s.tile z).service = .opened))
    (hown : ∀ z, t.holdsOf p z = s.holdsOf p z + if f z = true then 1 else 0)
    (hothers : ∀ q z, q ≠ p → t.holdsOf q z = s.holdsOf q z) (hclosing : t.closing = s.closing)
    (hparams : t.params = s.params)
    (hpending : ∀ q k r w l, t.slot q k = .pending r w l → ∃ w' l', s.slot q k = .pending r w' l') : t.GroundLaw := by
  have hservice (z : Tile) : (t.tile z).service = (s.tile z).service := by
    rw [htile]; split <;> rfl
  refine ⟨fun z => ?_, ?_, fun q k r w l hslot z hz => ?_⟩
  · obtain ⟨hzero, hcount, hinactive, hblocked, hclosed⟩ := h.tiles z
    unfold State.TileLaw
    rw [hparams]
    by_cases hz : f z = true
    · obtain ⟨hactive, howner⟩ := hf z hz
      have hrecord : t.tile z = { s.tile z with owner := some p, hold := (s.tile z).hold + 1 } := by rw [htile, if_pos hz]
      rw [hrecord]
      refine ⟨by simp, fun q => ?_, by simp [hactive], fun hb => ?_, by simp⟩
      · by_cases hq : q = p
        · subst hq
          rw [hown, if_pos hz, hcount]
          obtain howner | ⟨howner, -⟩ := howner
          · simp [howner]
          · simp [howner, hzero.mp howner]
        · rw [hothers q z hq, hcount]
          obtain howner | ⟨howner, -⟩ := howner
          · simp [howner, Ne.symm hq]
          · simp [howner, Ne.symm hq]
      · obtain howner | ⟨-, hopened⟩ := howner
        · exact absurd (howner.symm.trans (hblocked hb)) (by simp)
        · exact absurd (hopened.symm.trans hb) (by simp)
    · have hrecord : t.tile z = s.tile z := by rw [htile, if_neg hz]
      rw [hrecord]
      refine ⟨hzero, fun q => ?_, hinactive, hblocked, hclosed⟩
      by_cases hq : q = p
      · subst hq; rw [hown, if_neg hz, Nat.add_zero]; exact hcount q
      · rw [hothers q z hq]; exact hcount q
  · unfold State.ClosingLaw
    simp only [hservice, hclosing]
    exact h.closing
  · obtain ⟨w', l', hslot'⟩ := hpending q k r w l hslot
    rw [hservice]
    exact h.opened q k r w' l' hslot' z hz

/-- Holds of a party end on tiles that it holds, with the closing-tile count. -/
theorem of_dropHolds (h : s.GroundLaw) {p : Party} {f : Tile → Bool}
    (htile : ∀ z, t.tile z = if f z = true then (s.tile z).dropHold else s.tile z)
    (hclosing : t.closing = (s.dropHolds f).closing)
    (hown : ∀ z, t.holdsOf p z + (if f z = true then 1 else 0) = s.holdsOf p z)
    (hothers : ∀ q z, q ≠ p → t.holdsOf q z = s.holdsOf q z) (hparams : t.params = s.params)
    (hpending : ∀ q k r w l, t.slot q k = .pending r w l → ∃ w' l', s.slot q k = .pending r w' l') : t.GroundLaw := by
  have howned (z : Tile) (hz : f z = true) : (s.tile z).owner = some p ∧ 1 ≤ (s.tile z).hold ∧
      s.holdsOf p z = (s.tile z).hold := by
    obtain ⟨hzero, hcount, -, -, -⟩ := h.tiles z
    have hge := hown z
    rw [if_pos hz, hcount] at hge
    by_cases howner : (s.tile z).owner = some p
    · rw [if_pos howner] at hge
      exact ⟨howner, by omega, (hcount p).trans (if_pos howner)⟩
    · rw [if_neg howner] at hge; omega
  refine ⟨fun z => ?_, ?_, fun q k r w l hslot z hz => ?_⟩
  · obtain ⟨hzero, hcount, hinactive, hblocked, hclosed⟩ := h.tiles z
    unfold State.TileLaw
    rw [hparams]
    by_cases hz : f z = true
    · obtain ⟨howner, hge, hsame⟩ := howned z hz
      have hnew := hown z
      rw [if_pos hz, hsame] at hnew
      have hrecord : t.tile z = (s.tile z).dropHold := by rw [htile, if_pos hz]
      obtain ⟨-, hhold, hownerNew, hserviceNew⟩ := (s.tile z).dropHold_spec
      rw [hrecord]
      by_cases hlast : (s.tile z).hold ≤ 1
      · rw [if_pos hlast] at hownerNew
        refine ⟨by simp [hownerNew, hhold]; omega, fun q => ?_, fun _ => hownerNew, fun _ => hownerNew, fun hc => ?_⟩
        · rw [hownerNew, if_neg (by simp)]
          by_cases hq : q = p
          · subst hq; omega
          · rw [hothers q z hq, hcount, howner, if_neg (by simpa using Ne.symm hq)]
        · rw [hserviceNew] at hc
          split_ifs at hc with hboth
          exact absurd ⟨hlast, hc⟩ hboth
      · rw [if_neg hlast] at hownerNew
        rw [if_neg (by tauto)] at hserviceNew
        refine ⟨by simp [hownerNew, hhold, howner]; omega, fun q => ?_, fun hi => ?_, fun hb => ?_, fun _ => ?_⟩
        · rw [hownerNew, hhold, howner]
          by_cases hq : q = p
          · subst hq; simp; omega
          · rw [hothers q z hq, hcount, howner, if_neg (by simpa using Ne.symm hq), if_neg (by simpa using Ne.symm hq)]
        · rw [hownerNew]; exact hinactive hi
        · rw [hownerNew]; exact hblocked (hserviceNew ▸ hb)
        · rw [hownerNew, howner]; simp
    · have hrecord : t.tile z = s.tile z := by rw [htile, if_neg hz]
      rw [hrecord]
      refine ⟨hzero, fun q => ?_, hinactive, hblocked, hclosed⟩
      by_cases hq : q = p
      · subst hq; rw [← hcount, ← hown z, if_neg hz, Nat.add_zero]
      · rw [hothers q z hq]; exact hcount q
  · unfold State.ClosingLaw
    have hleft : (fun z => (t.tile z).service == .closing) = fun z =>
        (s.tile z).service == .closing && !(f z && (s.tile z).lastHold) := by
      funext z
      rw [htile, TileRecord.lastHold]
      by_cases hz : f z = true
      · rw [if_pos hz, (s.tile z).dropHold_spec.2.2.2]
        by_cases hlast : (s.tile z).hold ≤ 1
        · cases hs : (s.tile z).service <;> simp [hz, hlast]
        · simp [hlast]
      · simp [hz]
    have hsplit := countTiles_split (fun z => (s.tile z).service == .closing) fun z => f z && (s.tile z).lastHold
    have hcomm : (fun z => (s.tile z).service == .closing && (f z && (s.tile z).lastHold)) =
        fun z => f z && (s.tile z).lastHold && (s.tile z).service == .closing := by
      funext z; rw [Bool.and_comm]
    rw [hcomm] at hsplit
    have hcount := h.closing
    unfold State.ClosingLaw at hcount
    rw [hclosing, State.closing_dropHolds, hleft, hcount, hsplit]
    omega
  · obtain ⟨w', l', hslot'⟩ := hpending q k r w l hslot
    have hopened := h.opened q k r w' l' hslot' z hz
    rw [htile]
    split
    · rw [(s.tile z).dropHold_spec.2.2.2, if_neg (by simp [hopened]), hopened]
    · exact hopened

end State.GroundLaw

end Sys2Proof.Machine
end

section
/-! SUPPORT. The laws of claims and tiles together, kept by every move of the part. -/

namespace Sys2Proof.Machine

open Sys2Proof

/-- The laws of the parameters, the covers, the claims and the tiles. -/
structure State.GridLaw (s : State) : Prop where
  params : s.params.Law
  covers : ∀ x, s.CoverLaw x
  slots : s.SlotsLaw
  trips : ∀ x, s.TripLaw x
  ground : s.GroundLaw

/-- Two states with the same parameters, mode and arms. -/
structure State.SameArms (s t : State) : Prop where
  params : t.params = s.params
  mode : t.mode = s.mode
  arm : ∀ x, t.arm x = s.arm x

namespace State.SameArms

variable {s t : State}

theorem guardState (h : s.SameArms t) (x : Arm) : t.guardState x = s.guardState x := by
  rw [State.guardState, h.arm]; rfl

theorem mayHold (h : s.SameArms t) (p : Party) (hp : s.MayHold p) : t.MayHold p :=
  ⟨h.mode ▸ hp.1, fun x hx => (h.guardState x).symm ▸ hp.2 x hx⟩

theorem coverLaw (h : s.SameArms t) {x : Arm} (hx : s.CoverLaw x) : t.CoverLaw x := fun hjoined z hz => by
  rw [h.params]
  exact hx (h.guardState x ▸ hjoined) z ((State.touches_congr (by rw [h.arm]) z).symm.trans hz)

theorem tripLaw (h : s.SameArms t) (htrip : ∀ x, t.tripTiles x = s.tripTiles x) {x : Arm} (hx : s.TripLaw x) :
    t.TripLaw x := by
  refine ⟨fun hne => ?_, htrip x ▸ hx.2⟩
  rw [h.guardState]
  exact hx.1 (htrip x ▸ hne)

end State.SameArms

/-! ### Covers (R22, R31, R38) -/

/-- What an evaluation of a joined arm covers is active. -/
theorem State.active_of_evaluate {s : State} {x : Arm} {rep : Report} {m : Nat} {e : Evaluation}
    (h : s.evaluate x rep m = some e) (hparams : s.params.Law) (hold : ∀ z, s.touches x z = true → s.params.active z = true)
    {z : Tile} (hz : e.covers z = true) : s.params.active z = true := by
  obtain ⟨q, -, rfl⟩ := Option.map_eq_some_iff.mp h
  obtain ⟨tool, elbow⟩ := q
  obtain ⟨hncol, hnrow, hpitch, -⟩ := hparams
  have henvelope (r : Nat) (p : Probe) (hp : (s.params.envelope (s.params.arm x) r m p).covers z = true) :
      s.params.active z = true :=
    (((coverIsTheTilesMet s.params (s.params.arm x) r m p (by omega) (by omega) (by omega)).1 z).mp hp).1
  obtain ⟨v, hv, hvz⟩ := (Evaluation.covers_iff _ z).mp hz
  rw [Evaluation.mem_envelopes] at hv
  by_cases hfast : (s.params.arm x).vmax < tool.speed ∨ ∃ q, elbow = some q ∧ (s.params.arm x).vmax < q.speed
  · have hkept (old : Evaluation) (hrecord : (s.arm x).evaluation = some old) (hmem : v ∈ old.envelopes) :
        s.params.active z = true := by
      refine hold z ?_
      simp only [State.touches, hrecord]
      exact (Evaluation.covers_iff old z).mpr ⟨v, hmem, hvz⟩
    rw [State.evaluateProbes_fast hfast] at hv
    obtain htool | ⟨b, hb, hbv⟩ := hv
    · obtain ⟨old, hrecord, hv⟩ := Option.bind_eq_some_iff.mp htool
      exact hkept old hrecord (Evaluation.mem_envelopes.mpr (.inl hv))
    · obtain ⟨q, -, rfl⟩ := Option.map_eq_some_iff.mp hb
      obtain ⟨old, hrecord, hv⟩ := Option.bind_eq_some_iff.mp hbv
      obtain ⟨c, hc, hv⟩ := Option.bind_eq_some_iff.mp hv
      exact hkept old hrecord (Evaluation.mem_envelopes.mpr (.inr ⟨c, hc, hv⟩))
  · simp only [not_or, not_exists, not_and, not_lt] at hfast
    rw [State.evaluateProbes_slow hfast.1 hfast.2] at hv
    obtain htool | ⟨b, hb, hbv⟩ := hv
    · obtain rfl := Option.some.inj htool
      exact henvelope _ _ hvz
    · obtain ⟨q, -, rfl⟩ := Option.map_eq_some_iff.mp hb
      obtain rfl := Option.some.inj hbv
      exact henvelope _ _ hvz

/-- A tile of a lawful rectangle is active. -/
theorem Params.RectLaw.active {ps : Params} {r : Rect} (h : ps.RectLaw r) {z : Tile} (hz : r.contains z = true) :
    ps.active z = true := by
  obtain ⟨-, hcol, -, hrow⟩ := h
  simp only [Rect.contains, Bool.and_eq_true, decide_eq_true_eq] at hz
  simp only [Params.active, Bool.and_eq_true, decide_eq_true_eq]
  omega

/-- A grantable claim has OPEN tiles that are free or its party's own (R66). -/
theorem State.tile_of_grantable {s : State} {p : Party} {r : Rect} {a : Nat} (h : s.grantable p r a = true) {z : Tile}
    (hz : r.contains z = true) :
    (s.tile z).service = .opened ∧ ((s.tile z).owner = none ∨ (s.tile z).owner = some p) := by
  unfold State.grantable at h
  rw [Bool.and_eq_true, List.all_eq_true] at h
  have hgrant := h.1 z (mem_allTiles z)
  simpa [hz, TileRecord.grantableTo] using hgrant

/-! ### The grant of a shift target (R107, R109) -/

/-- The state in which a granted claim stands HELD, before its source drains or is released. -/
def State.holdTarget (s : State) (n : ClaimName) (r : Rect) (l : Option SlotNo) : State :=
  ((s.addHolds n.party r.contains).dequeue n).setSlot n.party n.slot (.held r l)

theorem State.grant_none (s : State) (n : ClaimName) (r : Rect) : (s.grant n r none).1 = s.holdTarget n r none := rfl

theorem State.grant_arm (s : State) {n : ClaimName} (r : Rect) (j : SlotNo) (hn : n.party ≠ .C) :
    (s.grant n r (some j)).1 = (s.holdTarget n r (some j)).startDrain n.party j n.slot := by
  obtain ⟨p, k⟩ := n
  cases p
  · rfl
  · rfl
  · exact absurd rfl hn

theorem State.grant_cell (s : State) {n : ClaimName} (r : Rect) (j : SlotNo) (hn : n.party = .C) :
    (s.grant n r (some j)).1 = ((s.holdTarget n r (some j)).releaseSlot .C j).1 := by
  obtain ⟨p, k⟩ := n
  subst hn
  rfl

theorem State.slot_holdTarget (s : State) (n : ClaimName) (r : Rect) (l : Option SlotNo) (q : Party) (j : SlotNo) :
    (s.holdTarget n r l).slot q j = if q = n.party ∧ j = n.slot then .held r l else s.slot q j := by
  simp [State.holdTarget, State.slot_setSlot_eq]

theorem State.tile_holdTarget (s : State) (n : ClaimName) (r : Rect) (l : Option SlotNo) (z : Tile) :
    (s.holdTarget n r l).tile z = (s.addHolds n.party r.contains).tile z := by
  simp [State.holdTarget]

/-- A HELD source drains towards its target. -/
theorem State.startDrain_of_held {s : State} {p : Party} {j k : SlotNo} {q : Rect} {l : Option SlotNo}
    (h : s.slot p j = .held q l) : s.startDrain p j k = s.setSlot p j (.draining q k) := by
  unfold State.startDrain
  rw [h]

namespace State.GridLaw

variable {s t : State}

/-- What changes neither the shape of a claim nor a tile. -/
theorem of_shape (h : s.GridLaw) (hslot : ∀ p k, (t.slot p k).SameShape (s.slot p k))
    (htrip : ∀ x, t.tripTiles x = s.tripTiles x) (htile : ∀ z, t.tile z = s.tile z) (hclosing : t.closing = s.closing)
    (hparams : t.params = s.params) (hmay : ∀ p, (∃ k, s.slot p k ≠ .empty) → s.MayHold p → t.MayHold p)
    (htripped : ∀ x, s.tripTiles x ≠ [] → s.guardState x = .tripped → t.guardState x = .tripped)
    (hcovers : ∀ x, t.CoverLaw x) : t.GridLaw where
  params := hparams ▸ h.params
  covers := hcovers
  slots := h.slots.of_shape hslot hparams hmay
  trips x := by
    rw [State.TripLaw, htrip]
    exact ⟨fun hne => htripped x hne ((h.trips x).1 hne), (h.trips x).2⟩
  ground := h.ground.of_same htile
    (fun p z => State.holdsOf_congr (fun k => (hslot p k).heldRect) (State.tripHolds_congr htrip z)) hclosing
    (fun z hz => by rw [hparams]; exact h.ground.active hz) fun p k r w l hk => by
      obtain ⟨w', hw'⟩ := (hk ▸ hslot p k).of_pending
      exact ⟨w', l, hw'⟩

/-- What changes neither claims nor tiles. -/
theorem of_same (h : s.GridLaw) (hslot : ∀ p k, t.slot p k = s.slot p k) (htrip : ∀ x, t.tripTiles x = s.tripTiles x)
    (htile : ∀ z, t.tile z = s.tile z) (hclosing : t.closing = s.closing) (hparams : t.params = s.params)
    (hmay : ∀ p, (∃ k, s.slot p k ≠ .empty) → s.MayHold p → t.MayHold p)
    (htripped : ∀ x, s.tripTiles x ≠ [] → s.guardState x = .tripped → t.guardState x = .tripped)
    (hcovers : ∀ x, t.CoverLaw x) : t.GridLaw :=
  h.of_shape (fun p k => hslot p k ▸ .refl _) htrip htile hclosing hparams hmay htripped hcovers

/-- What changes neither claims, tiles nor arms. -/
theorem of_sameArms (h : s.GridLaw) (hsame : s.SameArms t) (hslot : ∀ p k, (t.slot p k).SameShape (s.slot p k))
    (htrip : ∀ x, t.tripTiles x = s.tripTiles x) (htile : ∀ z, t.tile z = s.tile z) (hclosing : t.closing = s.closing) :
    t.GridLaw :=
  h.of_shape hslot htrip htile hclosing hsame.params (fun p _ => hsame.mayHold p)
    (fun x _ hx => (hsame.guardState x).trans hx) fun x => hsame.coverLaw (h.covers x)

/-- A release of a claim over `q` (R69). -/
theorem of_release (h : s.GridLaw) {p : Party} {k : SlotNo} {q : Rect} (hheld : (s.slot p k).heldRect = some q)
    (hslot : ∀ j, t.slot p j = if j = k then .empty else (s.slot p j).unlink k)
    (hothers : ∀ a j, a ≠ p → t.slot a j = s.slot a j)
    (htile : ∀ z, t.tile z = if q.contains z = true then (s.tile z).dropHold else s.tile z)
    (hclosing : t.closing = (s.dropHolds q.contains).closing) (htrip : ∀ x, t.tripTiles x = s.tripTiles x)
    (hsame : s.SameArms t) : t.GridLaw where
  params := hsame.params ▸ h.params
  covers x := hsame.coverLaw (h.covers x)
  slots := h.slots.of_release hslot hothers hsame.params hsame.mayHold
  trips x := hsame.tripLaw htrip (h.trips x)
  ground := by
    have htripHolds (a : Party) (z : Tile) := State.tripHolds_congr (p := a) htrip z
    refine h.ground.of_dropHolds (p := p) htile hclosing (fun z => ?_) (fun a z ha => ?_) hsame.params
      fun a j r w l hj => ?_
    · have hcount := State.holdsOf_slot (s := s) (u := t) (p := p) (t := z) k
        (fun j hj => by rw [hslot, if_neg hj, Claim.unlink_heldRect]) (htripHolds p z)
      rw [hslot, if_pos rfl, Claim.holdsTile_of_none (c := .empty) rfl, Nat.add_zero] at hcount
      rw [← hcount, Claim.holdsTile, hheld]
      rfl
    · exact State.holdsOf_congr (fun j => by rw [hothers a j ha]) (htripHolds a z)
    · by_cases ha : a = p
      · subst ha
        rw [hslot] at hj
        split_ifs at hj
        have hpending : ((s.slot a j).unlink k).state = .pending := by rw [hj]; rfl
        have hrect : ((s.slot a j).unlink k).rect = some r := by rw [hj]; rfl
        rw [Claim.rect_unlink] at hrect
        obtain hstate | ⟨-, hstate⟩ := (s.slot a j).state_unlink_cases k
        · rw [hstate] at hpending
          cases hc : s.slot a j with
          | pending r' w' l' => rw [hc] at hrect; cases hrect; exact ⟨w', l', rfl⟩
          | _ => rw [hc] at hpending; cases hpending
        · rw [hstate] at hpending; cases hpending
      · exact ⟨w, l, hothers a j ha ▸ hj⟩

theorem releaseSlot (h : s.GridLaw) {p : Party} {k : SlotNo} (hheld : (s.slot p k).heldRect.isSome = true) :
    (s.releaseSlot p k).1.GridLaw := by
  obtain ⟨q, hq⟩ := Option.isSome_iff_exists.mp hheld
  refine h.of_release hq (fun j => ?_) (fun a j ha => ?_) (fun z => ?_) ?_ (fun x => by simp) ⟨by simp, by simp, by simp⟩
  · rw [State.slot_releaseSlot _ _ _ _ _ hheld, if_pos rfl]
  · rw [State.slot_releaseSlot _ _ _ _ _ hheld, if_neg ha]
  · rw [State.tile_releaseSlot, hq]; rfl
  · unfold State.releaseSlot; rw [hq]; simp

theorem releaseTrip (h : s.GridLaw) (x : Arm) : (s.releaseTrip x).1.GridLaw := by
  have hsame : s.SameArms (s.releaseTrip x).1 := ⟨by simp, by simp, by simp⟩
  have htripX : (s.releaseTrip x).1.tripTiles x = [] := by simp [State.releaseTrip]
  have htripOf (y : Arm) (hy : y ≠ x) : (s.releaseTrip x).1.tripTiles y = s.tripTiles y := by
    simp [State.releaseTrip, State.tripTiles_setTripTiles_of_ne _ _ hy]
  have hslot (p : Party) (k : SlotNo) : (s.releaseTrip x).1.slot p k = s.slot p k := by simp [State.releaseTrip]
  refine ⟨hsame.params ▸ h.params, fun y => hsame.coverLaw (h.covers y), h.slots.of_same hslot hsame.params fun p _ => hsame.mayHold p,
    fun y => ?_, ?_⟩
  · obtain rfl | hy := eq_or_ne y x
    · rw [State.TripLaw, htripX]; simp
    · rw [State.TripLaw, htripOf y hy, hsame.guardState]; exact h.trips y
  · refine h.ground.of_dropHolds (p := x.party) (State.tile_releaseTrip s x) (by simp [State.releaseTrip]) (fun z => ?_)
      (fun q z hq => ?_) hsame.params fun q k r w l hk => ⟨w, l, hslot q k ▸ hk⟩
    · have hcount := State.holdsOf_trip (s := s) (u := (s.releaseTrip x).1) x (t := z) fun k => by rw [hslot]
      have hnot : (s.releaseTrip x).1.inTrip x z = false := by rw [State.inTrip, htripX]; rfl
      rw [hnot] at hcount
      simpa using hcount
    · refine State.holdsOf_congr (fun k => by rw [hslot]) ?_
      unfold State.tripHolds
      cases hx : q.arm with
      | none => rfl
      | some y =>
        have hy : y ≠ x := fun he => hq (he ▸ Party.eq_party_of_arm hx)
        have hin : (s.releaseTrip x).1.inTrip y z = s.inTrip y z := by rw [State.inTrip, State.inTrip, htripOf y hy]
        simp only [Option.elim_some, hin]

theorem removePending (h : s.GridLaw) {n : ClaimName} {w : Waiter} (hw : s.waiter n = some w) :
    (s.removePending n).GridLaw := by
  have hslot := (State.waiter_eq_some.mp hw).2
  have hsame : s.SameArms (s.removePending n) := ⟨by simp, by simp, by simp⟩
  have htrip (x : Arm) : (s.removePending n).tripTiles x = s.tripTiles x := by simp [State.removePending]
  have hempty : (s.removePending n).slot n.party n.slot = .empty := by rw [State.slot_removePending, if_pos ⟨rfl, rfl⟩]
  have hothers (q : Party) (j : SlotNo) (hj : q ≠ n.party ∨ j ≠ n.slot) : (s.removePending n).slot q j = s.slot q j := by
    rw [State.slot_removePending, if_neg (by tauto)]
  refine ⟨hsame.params ▸ h.params, fun x => hsame.coverLaw (h.covers x),
    h.slots.of_setSlot hempty hothers hsame.params hsame.mayHold (by simp [hslot, Claim.state]) (by simp [Claim.rect])
      (by simp [Claim.state]) (by simp [Claim.link]) (fun he => absurd rfl he) (fun he => by simp [Claim.state] at he),
    fun x => hsame.tripLaw htrip (h.trips x), ?_⟩
  refine h.ground.of_same (fun z => by simp) (fun p z => State.holdsOf_congr (fun k => ?_) (State.tripHolds_congr htrip z))
    (by simp) (fun z hz => by rw [hsame.params]; exact h.ground.active hz) fun p k r v l hk => ?_
  · rw [State.slot_removePending]
    split_ifs with hp
    · rw [hp.1, hp.2, hslot]; rfl
    · rfl
  · rw [State.slot_removePending] at hk
    split_ifs at hk
    exact ⟨v, l, hk⟩

theorem raise (h : s.GridLaw) (p : Party) (n : Notice) : (s.raise p n).GridLaw :=
  h.of_same (fun q k => by simp) (fun x => by simp) (fun z => by simp) (by simp) (by simp)
    (fun q _ hq => ⟨by simpa using hq.1, by simpa [State.guardState] using hq.2⟩) (fun x _ hx => by simpa [State.guardState] using hx)
    fun x => State.SameArms.coverLaw ⟨by simp, by simp, by simp⟩ (h.covers x)

theorem cancelPending (h : s.GridLaw) (p : Party) (c : CancelCause) : (s.cancelPending p c).GridLaw := by
  unfold State.cancelPending
  split
  · rename_i w hw
    obtain ⟨hmem, -⟩ := State.pendingOf_some hw
    exact (h.removePending (State.waiter_eq_some.mpr ⟨rfl, (State.mem_waiters.mp hmem).2⟩)).raise _ _
  · exact h

/-- The grant of a PENDING claim, but for the link of its target (R67). -/
theorem grantTiles (h : s.GridLaw) {n : ClaimName} {w : Waiter} (hw : s.waiter n = some w)
    (hg : s.grantable n.party w.rect w.wait.arrival = true)
    (hheld : (t.slot n.party n.slot).heldRect = some w.rect)
    (hothers : ∀ q j, q ≠ n.party ∨ j ≠ n.slot → (t.slot q j).heldRect = (s.slot q j).heldRect)
    (htile : ∀ z, t.tile z = (s.addHolds n.party w.rect.contains).tile z) (hclosing : t.closing = s.closing)
    (htrip : ∀ x, t.tripTiles x = s.tripTiles x) (hparams : t.params = s.params)
    (hpending : ∀ q k r v l, t.slot q k = .pending r v l → ∃ v' l', s.slot q k = .pending r v' l') : t.GroundLaw := by
  have hslot := (State.waiter_eq_some.mp hw).2
  have hrect := h.slots.rects n.party n.slot w.rect (by rw [hslot]; rfl)
  have htripHolds (a : Party) (z : Tile) := State.tripHolds_congr (p := a) htrip z
  refine h.ground.of_addHolds (p := n.party) (f := w.rect.contains) (fun z => (htile z).trans (State.tile_addHolds ..))
    (fun z hz => ?_) (fun z => ?_) (fun q z hq => ?_) hclosing hparams hpending
  · obtain ⟨hopened, howner⟩ := State.tile_of_grantable hg hz
    exact ⟨hrect.active hz, howner.symm.imp_right fun hnone => ⟨hnone, hopened⟩⟩
  · have hcount := State.holdsOf_slot (s := s) (u := t) (p := n.party) (t := z) n.slot
      (fun j hj => hothers _ j (.inr hj)) (htripHolds _ z)
    rw [hslot, Claim.holdsTile_of_none (c := .pending _ _ _) rfl, Nat.add_zero] at hcount
    rw [hcount, Claim.holdsTile, hheld]
    rfl
  · exact State.holdsOf_congr (fun j => hothers q j (.inl hq)) (htripHolds q z)

/-- The grant of a PENDING claim that is left without a link (R67). -/
theorem grantPlain (h : s.GridLaw) {n : ClaimName} {w : Waiter} (hw : s.waiter n = some w)
    (hg : s.grantable n.party w.rect w.wait.arrival = true) : (s.grant n w.rect none).1.GridLaw := by
  have hslot := (State.waiter_eq_some.mp hw).2
  have hsame : s.SameArms (s.grant n w.rect none).1 := ⟨by simp, by simp, by simp⟩
  have hnew (q : Party) (j : SlotNo) : (s.grant n w.rect none).1.slot q j =
      if q = n.party ∧ j = n.slot then .held w.rect none else s.slot q j := by
    simp [State.grant, State.slot_setSlot_eq]
  have hothers (q : Party) (j : SlotNo) (hj : q ≠ n.party ∨ j ≠ n.slot) :
      (s.grant n w.rect none).1.slot q j = s.slot q j := by
    rw [hnew, if_neg (by tauto)]
  have hheld : (s.grant n w.rect none).1.slot n.party n.slot = .held w.rect none := by rw [hnew, if_pos ⟨rfl, rfl⟩]
  have htrip (x : Arm) : (s.grant n w.rect none).1.tripTiles x = s.tripTiles x := by simp
  have hmay : s.MayHold n.party := h.slots.standing n.party n.slot (by simp [hslot, Claim.state])
  refine ⟨hsame.params ▸ h.params, fun x => hsame.coverLaw (h.covers x),
    h.slots.of_setSlot hheld hothers hsame.params hsame.mayHold (by simp [hslot, Claim.state]) (fun r hr => ?_)
      (by simp [Claim.state]) (by simp [Claim.link]) (fun _ => hsame.mayHold _ hmay) (fun he => by simp [Claim.state] at he),
    fun x => hsame.tripLaw htrip (h.trips x), ?_⟩
  · refine h.slots.rects n.party n.slot r ?_
    rw [hslot]
    exact hr
  · refine h.grantTiles hw hg (by rw [hheld]; rfl) (fun q j hj => by rw [hothers q j hj])
      (fun z => by simp [State.grant]) (by simp [State.grant]) htrip hsame.params fun q k r v l hk => ?_
    rw [hnew] at hk
    split_ifs at hk
    exact ⟨v, l, hk⟩

/-- The link of a PENDING claim names a HELD source without a link. -/
theorem source_of_waiter (h : s.GridLaw) {n : ClaimName} {w : Waiter} (hw : s.waiter n = some w) {j : SlotNo}
    (hj : w.link = some j) : ∃ q, s.slot n.party j = .held q none ∧ j ≠ n.slot := by
  have hslot := (State.waiter_eq_some.mp hw).2
  have hlink := (h.slots.links n.party n.slot j (by rw [hslot]; exact hj)).ofPending (by rw [hslot]; rfl)
  obtain ⟨hstate, hnone, -⟩ := hlink
  have hne : j ≠ n.slot := fun he => by rw [he, hslot] at hstate; cases hstate
  cases hc : s.slot n.party j with
  | held q l => rw [hc] at hnone; cases hnone; exact ⟨q, rfl, hne⟩
  | _ => rw [hc] at hstate; cases hstate

/-- The grant of a PENDING shift target of an arm (R107). -/
theorem grantArm (h : s.GridLaw) {n : ClaimName} {w : Waiter} (hw : s.waiter n = some w) {j : SlotNo}
    (hj : w.link = some j) (hn : n.party ≠ .C) (hg : s.grantable n.party w.rect w.wait.arrival = true) :
    (s.grant n w.rect (some j)).1.GridLaw := by
  have hslot := (State.waiter_eq_some.mp hw).2
  obtain ⟨q, hsource, hne⟩ := h.source_of_waiter hw hj
  have hdrain : (s.grant n w.rect (some j)).1 = (s.holdTarget n w.rect (some j)).setSlot n.party j (.draining q n.slot) := by
    rw [State.grant_arm s _ _ hn]
    refine State.startDrain_of_held (l := none) ?_
    rw [State.slot_holdTarget, if_neg fun he => hne he.2, hsource]
  have hnew (a : Party) (i : SlotNo) : (s.grant n w.rect (some j)).1.slot a i =
      if a = n.party ∧ i = j then .draining q n.slot
      else if a = n.party ∧ i = n.slot then .held w.rect (some j) else s.slot a i := by
    rw [hdrain, State.slot_setSlot_eq, State.slot_holdTarget]
  have hsame : s.SameArms (s.grant n w.rect (some j)).1 := ⟨by simp, by simp, by simp⟩
  have htrip (x : Arm) : (s.grant n w.rect (some j)).1.tripTiles x = s.tripTiles x := by simp
  have htargetNew : (s.grant n w.rect (some j)).1.slot n.party n.slot = .held w.rect (some j) := by
    rw [hnew, if_neg fun he => hne he.2.symm, if_pos ⟨rfl, rfl⟩]
  refine ⟨hsame.params ▸ h.params, fun x => hsame.coverLaw (h.covers x), ?_, fun x => hsame.tripLaw htrip (h.trips x), ?_⟩
  · refine h.slots.of_grantShift (k := n.slot) (q := q) hn (hj ▸ hslot) (by rw [hsource]; rfl) htargetNew ?_
      (fun a b hab => ?_) hsame.params hsame.mayHold
    · rw [hnew, if_pos ⟨rfl, rfl⟩]
    · rw [hnew, if_neg (by tauto), if_neg (by tauto)]
  · refine h.grantTiles hw hg (by rw [htargetNew]; rfl) (fun a i hi => ?_)
      (fun z => by rw [hdrain, State.tile_setSlot, State.tile_holdTarget])
      (by rw [hdrain]; simp [State.holdTarget]) htrip hsame.params fun a i r v l hk => ?_
    · rw [hnew, if_neg (c := a = n.party ∧ i = n.slot) (by tauto)]
      split_ifs with hij
      · rw [hij.1, hij.2, hsource]; rfl
      · rfl
    · rw [hnew] at hk
      split_ifs at hk
      exact ⟨v, l, hk⟩

/-- The grant of a PENDING shift target of party C (R109). -/
theorem grantCell (h : s.GridLaw) {n : ClaimName} {w : Waiter} (hw : s.waiter n = some w) {j : SlotNo}
    (hj : w.link = some j) (hn : n.party = .C) (hg : s.grantable n.party w.rect w.wait.arrival = true) :
    (s.grant n w.rect (some j)).1.GridLaw := by
  obtain ⟨q, hsource, hne⟩ := h.source_of_waiter hw hj
  rw [hn] at hsource
  have hplain := h.grantPlain hw hg
  rw [State.grant_none] at hplain
  have hsourceNew (l : Option SlotNo) : (s.holdTarget n w.rect l).slot .C j = .held q none := by
    rw [State.slot_holdTarget, if_neg fun he => hne he.2, hsource]
  have hheld (l : Option SlotNo) : ((s.holdTarget n w.rect l).slot .C j).heldRect.isSome = true := by
    rw [hsourceNew]; rfl
  rw [State.grant_cell s _ _ hn]
  refine hplain.of_release (k := j) (q := q) (by rw [hsourceNew]; rfl) (fun i => ?_) (fun a i ha => ?_) (fun z => ?_) ?_
    (fun x => by simp [State.holdTarget])
    ⟨by simp [State.holdTarget], by simp [State.holdTarget], fun x => by simp [State.holdTarget]⟩
  · rw [State.slot_releaseSlot _ _ _ _ _ (hheld _), if_pos rfl, State.slot_holdTarget, State.slot_holdTarget]
    split_ifs with hij hik
    · rfl
    · simp [Claim.unlink]
    · rfl
  · rw [State.slot_releaseSlot _ _ _ _ _ (hheld _), if_neg ha, State.slot_holdTarget, State.slot_holdTarget,
      if_neg fun he => ha (he.1.trans hn), if_neg fun he => ha (he.1.trans hn)]
  · rw [State.tile_releaseSlot, hsourceNew, State.tile_holdTarget, State.tile_holdTarget]
    rfl
  · have hclosing : ((s.holdTarget n w.rect (some j)).releaseSlot .C j).1.closing =
        ((s.holdTarget n w.rect (some j)).dropHolds q.contains).closing := by
      unfold State.releaseSlot
      rw [hsourceNew]
      simp [Claim.heldRect]
    rw [hclosing, State.closing_dropHolds, State.closing_dropHolds]
    simp only [State.tile_holdTarget]
    rfl

theorem grant (h : s.GridLaw) {n : ClaimName} {w : Waiter} (hw : s.waiter n = some w)
    (hg : s.grantable n.party w.rect w.wait.arrival = true) : (s.grant n w.rect w.link).1.GridLaw := by
  cases hlink : w.link with
  | none => exact h.grantPlain hw hg
  | some j =>
    by_cases hn : n.party = .C
    · exact h.grantCell hw hlink hn hg
    · exact h.grantArm hw hlink hn hg

/-! ### Trips -/

/-- An ARMING or LIVE arm holds no trip claim. -/
theorem tripTiles_of_trippable (h : s.GridLaw) {x : Arm} (hx : s.trippable x = true) : s.tripTiles x = [] := by
  by_contra hne
  have htripped := (h.trips x).1 hne
  simp [State.trippable, htripped] at hx

theorem tripGuard (h : s.GridLaw) {x : Arm} (c : Cause) (own : Bool) (o : Option Tile) (hx : s.trippable x = true) :
    (s.tripGuard x c own o).GridLaw := by
  have harm (y : Arm) (hy : y ≠ x) : (s.tripGuard x c own o).arm y = s.arm y := arm_tripGuard_of_ne s c own o hy
  have hjoined : s.guardState x ≠ .offline := fun he => by simp [State.trippable, he] at hx
  have hstate : (s.tripGuard x c own o).guardState x = .tripped := by rw [State.guardState, guard_tripGuard]
  have hstateOf (y : Arm) (hy : y ≠ x) : (s.tripGuard x c own o).guardState y = s.guardState y := by
    rw [State.guardState, harm y hy]; rfl
  refine h.of_same (fun p k => by simp) (fun y => by simp) (fun z => by simp) (by simp) (by simp) (fun p _ hp => ?_)
    (fun y hne hy => ?_) fun y => ?_
  · refine ⟨by simpa using hp.1, fun y hy => ?_⟩
    obtain rfl | hne := eq_or_ne y x
    · rw [hstate]; simp
    · rw [hstateOf y hne]; exact hp.2 y hy
  · obtain rfl | hyx := eq_or_ne y x
    · exact hstate
    · rw [hstateOf y hyx]; exact hy
  · intro hy z hz
    have htouches : (s.tripGuard x c own o).touches y z = s.touches y z := State.touches_congr (by simp [State.tripGuard]) z
    simp only [State.tripGuard_frame]
    refine h.covers y ?_ z (htouches ▸ hz)
    obtain rfl | hyx := eq_or_ne y x
    · exact hjoined
    · rw [← hstateOf y hyx]; exact hy

/-- Step 3 of a trip of an arm without trip claim (R135). -/
theorem buildTripClaim (h : s.GridLaw) {x : Arm} (hx : s.guardState x = .tripped) (htrip : s.tripTiles x = []) :
    (s.buildTripClaim x).GridLaw := by
  have hparts := parts_buildTripClaim s x
  have hstate (y : Arm) : (s.buildTripClaim x).guardState y = s.guardState y := by
    obtain rfl | hy := eq_or_ne y x
    · rw [State.guardState, arm_buildTripClaim]; rfl
    · rw [State.guardState, arm_buildTripClaim_of_ne s hy]; rfl
  have hmay (p : Party) (hp : s.MayHold p) : (s.buildTripClaim x).MayHold p :=
    ⟨by simpa using hp.1, fun y hy => by rw [hstate]; exact hp.2 y hy⟩
  have hslot (p : Party) (k : SlotNo) : (s.buildTripClaim x).slot p k = s.slot p k := slot_buildTripClaim s x p k
  refine ⟨by simpa using h.params, fun y hy z hz => ?_, h.slots.of_same hslot (by simp) (fun p _ => hmay p), fun y => ?_, ?_⟩
  · have htouches : (s.buildTripClaim x).touches y z = s.touches y z := State.touches_congr (hparts y).2 z
    simp only [State.buildTripClaim_frame]
    exact h.covers y (hstate y ▸ hy) z (htouches ▸ hz)
  · obtain rfl | hy := eq_or_ne y x
    · rw [State.TripLaw, hstate, tripTiles_buildTripClaim]
      exact ⟨fun _ => hx, allTiles_nodup.filter _⟩
    · rw [State.TripLaw, hstate, tripTiles_buildTripClaim_of_ne s hy]; exact h.trips y
  · have hin (z : Tile) : (s.buildTripClaim x).inTrip x z = s.tripTakes x z := by
      rw [State.inTrip, tripTiles_buildTripClaim, Bool.eq_iff_iff]
      simp
    refine h.ground.of_addHolds (p := x.party) (f := s.tripTakes x) (tile_buildTripClaim s x) (fun z hz => ?_)
      (fun z => ?_) (fun q z hq => ?_) (by simp) (by simp) fun q k r w l hk => ⟨w, l, hslot q k ▸ hk⟩
    · obtain ⟨htouches, howner⟩ := State.tripTakes_iff.mp hz
      exact ⟨h.covers x (by simp [hx]) z htouches, howner⟩
    · have hcount := State.holdsOf_trip (s := s) (u := s.buildTripClaim x) x (t := z) fun k => by rw [hslot]
      have hnot : s.inTrip x z = false := by rw [State.inTrip, htrip]; rfl
      rw [hnot, hin] at hcount
      simpa using hcount
    · refine State.holdsOf_congr (fun k => by rw [hslot]) ?_
      unfold State.tripHolds
      cases hy : q.arm with
      | none => rfl
      | some y =>
        have hne : y ≠ x := fun he => hq (he ▸ Party.eq_party_of_arm hy)
        have hin : (s.buildTripClaim x).inTrip y z = s.inTrip y z := by
          rw [State.inTrip, State.inTrip, tripTiles_buildTripClaim_of_ne s hne]
        simp only [Option.elim_some, hin]

theorem tripBegin (h : s.GridLaw) {x : Arm} (c : Cause) (own : Bool) (o : Option Tile) (hx : s.trippable x = true) :
    (s.tripBegin x c own o).GridLaw := by
  refine ((h.tripGuard c own o hx).cancelPending x.party .trip).buildTripClaim ?_ ?_
  · rw [State.guardState, arm_cancelPending, guard_tripGuard]
  · have htrip : ((s.tripGuard x c own o).cancelPending x.party .trip).tripTiles x = (s.tripGuard x c own o).tripTiles x := by
      unfold State.cancelPending
      split <;> simp [State.removePending]
    rw [htrip, tripTiles_tripGuard, h.tripTiles_of_trippable hx]

/-! ### Every move -/

theorem move (h : s.Move t) (hs : s.GridLaw) : t.GridLaw := by
  cases h with
  | raise p n => exact hs.raise p n
  | monitor x m =>
    refine hs.of_same (fun p k => by simp) (fun y => by simp) (fun z => by simp) (by simp) (by simp)
      (fun p _ hp => ⟨by simpa using hp.1, by simpa [State.guardState] using hp.2⟩)
      (fun y _ hy => by simpa [State.guardState] using hy) fun y hy z hz => ?_
    have hrecord : ((s.setMonitor x m).arm y).evaluation = (s.arm y).evaluation := by
      obtain rfl | hyx := eq_or_ne y x
      · simp
      · rw [State.arm_setMonitor_of_ne _ _ hyx]
    have htouches : (s.setMonitor x m).touches y z = s.touches y z := State.touches_congr hrecord z
    simp only [State.setMonitor_frame]
    exact hs.covers y (by simpa [State.guardState] using hy) z (htouches ▸ hz)
  | evaluation x rep m e he =>
    refine hs.of_same (fun p k => by simp) (fun y => by simp) (fun z => by simp) (by simp) (by simp)
      (fun p _ hp => ⟨by simpa using hp.1, by simpa [State.guardState] using hp.2⟩)
      (fun y _ hy => by simpa [State.guardState] using hy) fun y hy z hz => ?_
    have hjoined : s.guardState y ≠ .offline := by simpa [State.guardState] using hy
    simp only [State.setEvaluation_frame]
    obtain rfl | hyx := eq_or_ne y x
    · refine State.active_of_evaluate he hs.params (hs.covers y hjoined) ?_
      simpa [State.touches] using hz
    · refine hs.covers y hjoined z ?_
      rw [← State.touches_congr (by rw [State.arm_setEvaluation_of_ne s (some e) hyx]) z]
      exact hz
  | guard x g hstate =>
    have hstateX : (s.setGuard x g).guardState x = g.state := by simp [State.guardState]
    have hstateOf (y : Arm) (hy : y ≠ x) : (s.setGuard x g).guardState y = s.guardState y := by
      rw [State.guardState, State.arm_setGuard_of_ne _ _ hy]; rfl
    have hoffline (y : Arm) : (s.setGuard x g).guardState y = .offline ↔ s.guardState y = .offline := by
      obtain rfl | hy := eq_or_ne y x
      · rw [hstateX]
        obtain ⟨h, -⟩ | ⟨harming, hlive, -⟩ := hstate
        · rw [h]
        · simp [harming, hlive]
      · rw [hstateOf y hy]
    refine hs.of_same (fun p k => by simp) (fun y => by simp) (fun z => by simp) (by simp) (by simp)
      (fun p _ hp => ⟨by simpa using hp.1, fun y hy => fun ho => hp.2 y hy ((hoffline y).mp ho)⟩)
      (fun y _ hy => ?_) fun y hy z hz => ?_
    · obtain rfl | hyx := eq_or_ne y x
      · rw [hstateX]
        obtain ⟨h, -⟩ | ⟨harming, -, -⟩ := hstate
        · rw [h]; exact hy
        · simp [harming] at hy
      · rw [hstateOf y hyx]; exact hy
    · have htouches : (s.setGuard x g).touches y z = s.touches y z := State.touches_congr (by simp) z
      simp only [State.setGuard_frame]
      exact hs.covers y (fun ho => hy ((hoffline y).mpr ho)) z (htouches ▸ hz)
  | remove n w hw => exact hs.removePending hw
  | release p k hheld => exact hs.releaseSlot hheld
  | releaseTrip x => exact hs.releaseTrip x
  | grant n w hw hg => exact hs.grant hw hg
  | trip x c own o hx => exact hs.tripBegin c own o hx

theorem moves (hs : s.GridLaw) (h : s.Moves t) : t.GridLaw := h.keeps (fun _ _ => move) hs

end State.GridLaw

end Sys2Proof.Machine
end

section
/-! SUPPORT. The laws of claims and tiles over the requests: new claims, shifts, evictions, blocks and stops. -/

namespace Sys2Proof.Machine

open Sys2Proof

/-! ### A claim that enters the queue (R65, R80) -/

theorem State.setSlot_setSlot (s : State) (p : Party) (k : SlotNo) (c d : Claim) :
    (s.setSlot p k c).setSlot p k d = s.setSlot p k d := by
  unfold State.setSlot
  congr 1
  cases p <;> fin_cases k <;> rfl

/-- A claim that is granted at once might as well have entered the queue before. -/
theorem State.holdTarget_enqueue (s : State) (p : Party) (k : SlotNo) (r : Rect) (l m : Option SlotNo) :
    (s.enqueue p k r l).holdTarget ⟨p, k⟩ r m = s.holdTarget ⟨p, k⟩ r m := by
  have hclaims : (s.enqueue p k r l).holdTarget ⟨p, k⟩ r m =
      { (((s.addHolds p r.contains).setSlot p k (.pending r ⟨s.nextArrival, 0, false⟩ l)).setSlot p k (.held r m)) with
        queue := (s.queue ++ [(⟨p, k⟩ : ClaimName)]).filter (· ≠ (⟨p, k⟩ : ClaimName)) } := rfl
  have hqueue : (s.queue ++ [(⟨p, k⟩ : ClaimName)]).filter (· ≠ (⟨p, k⟩ : ClaimName)) = s.queue.filter (· ≠ ⟨p, k⟩) := by
    simp
  rw [hclaims, State.setSlot_setSlot, hqueue]
  rfl

theorem State.grant_enqueue (s : State) (p : Party) (k : SlotNo) (r : Rect) (l m : Option SlotNo) :
    ((s.enqueue p k r l).grant ⟨p, k⟩ r m).1 = (s.grant ⟨p, k⟩ r m).1 := by
  cases m with
  | none => rw [State.grant_none, State.grant_none, State.holdTarget_enqueue]
  | some j =>
    by_cases hp : p = .C
    · rw [State.grant_cell _ _ _ hp, State.grant_cell _ _ _ hp, State.holdTarget_enqueue]
    · rw [State.grant_arm _ _ _ hp, State.grant_arm _ _ _ hp, State.holdTarget_enqueue]

namespace State.Placeable

variable {s : State} {p : Party} {k : SlotNo} {r : Rect} {l : Option SlotNo}

theorem slot_empty (h : s.Placeable p k r l) : s.slot p k = .empty := (State.firstEmpty_some h.slot).1

theorem mayHold (h : s.Placeable p k r l) : s.MayHold p := by
  refine ⟨by simp [h.mode], fun x hx hoffline => ?_⟩
  have hstanding := h.standing
  unfold State.standing at hstanding
  rw [hx] at hstanding
  simp [hoffline] at hstanding

theorem service (h : s.Placeable p k r l) {z : Tile} (hz : r.contains z = true) : (s.tile z).service = .opened := by
  have hopened := firstTile_eq_none.mp h.opened z
  simpa [hz] using hopened

theorem not_pending (h : s.Placeable p k r l) (horder : s.QueueOrder) (j : SlotNo) : (s.slot p j).state ≠ .pending := by
  intro hj
  cases hc : s.slot p j with
  | pending q w m =>
    have hentry : (⟨p, j⟩ : ClaimName) ∈ s.queue := by rw [horder.pending, State.arrivalOf, hc]; rfl
    exact horder.party_ne_of_pendingOf_none h.noPending hentry rfl
  | _ => rw [hc] at hj; cases hj

/-- A source is HELD without a link, and no claim of its party is DRAINING (R103). -/
theorem of_link (h : s.Placeable p k r l) (hlaw : s.SlotsLaw) {j : SlotNo} (hj : l = some j) :
    j ≠ k ∧ (∃ q, s.slot p j = .held q none) ∧ ∀ i, (s.slot p i).state ≠ .draining := by
  obtain ⟨⟨q, m, hslot⟩, hdrain⟩ := h.source j hj
  have hnodrain (i : SlotNo) (hi : (s.slot p i).state = .draining) : False := by
    have := State.drainOf_isSome_iff.mpr ⟨i, hi⟩
    simp [hdrain] at this
  refine ⟨fun he => ?_, ⟨q, ?_⟩, hnodrain⟩
  · rw [he, h.slot_empty] at hslot; cases hslot
  · cases m with
    | none => exact hslot
    | some i =>
      have hlink := (hlaw.links p j i (by rw [hslot]; rfl)).ofHeld (by rw [hslot]; rfl)
      exact absurd hlink.1 (hnodrain i)

/-- The claim enters the queue as a waiting claim that is grantable where it was before. -/
theorem waiter_enqueue (s : State) (p : Party) (k : SlotNo) (r : Rect) (l : Option SlotNo) :
    (s.enqueue p k r l).waiter ⟨p, k⟩ = some ⟨⟨p, k⟩, r, ⟨s.nextArrival, 0, false⟩, l⟩ :=
  State.waiter_eq_some.mpr ⟨rfl, by simp [State.slot_enqueue]⟩

end State.Placeable

/-- The queue after a claim has entered it holds that claim and those before. -/
theorem State.mem_waiters_enqueue {s : State} {p : Party} {k : SlotNo} {r : Rect} {l : Option SlotNo} {w : Waiter}
    (h : w ∈ (s.enqueue p k r l).waiters) : w = ⟨⟨p, k⟩, r, ⟨s.nextArrival, 0, false⟩, l⟩ ∨ w ∈ s.waiters := by
  obtain ⟨hmem, hslot⟩ := State.mem_waiters.mp h
  by_cases hname : w.name = ⟨p, k⟩
  · left
    rw [hname, State.slot_enqueue] at hslot
    obtain ⟨n, q, v, m⟩ := w
    simp_all
  · right
    have hentry : w.name ∈ s.queue := by simpa [State.enqueue, hname] using hmem
    have hne : ¬(w.name.party = p ∧ w.name.slot = k) := fun he => hname (by rw [← he.1, ← he.2])
    rw [State.slot_enqueue, if_neg hne] at hslot
    exact State.mem_waiters.mpr ⟨hentry, hslot⟩

theorem State.grantable_enqueue {s : State} {p : Party} {k : SlotNo} {r : Rect} (l : Option SlotNo)
    (h : s.grantable p r s.nextArrival = true) : (s.enqueue p k r l).grantable p r s.nextArrival = true := by
  unfold State.grantable at h ⊢
  simp only [Bool.and_eq_true, Bool.not_eq_true', List.any_eq_false] at h ⊢
  refine ⟨by simpa using h.1, fun w hw => ?_⟩
  obtain rfl | hw := State.mem_waiters_enqueue hw
  · simp [Waiter.earlierOver]
  · exact h.2 w hw

/-! ### What a SHIFT does beyond the grant of its target (R108, R109) -/

/-- What follows the grant of a shift target is a run of moves. -/
theorem State.settleShift_moves (s : State) (p : Party) (k source : SlotNo) (r : Rect) :
    (s.grant ⟨p, k⟩ r (some source)).1.Moves (s.settleShift p k source r).1 := by
  have hgrant := State.Moves.refl (s.grant ⟨p, k⟩ r (some source)).1
  unfold State.settleShift
  dsimp only
  split
  · exact hgrant.grantScan
  · exact hgrant
  · split
    · exact hgrant
    · rename_i hheld
      split
      · exact (hgrant.step (.release _ p source (by rw [hheld]; rfl))).grantScan
      · exact hgrant

/-! ### HALT (R140, R152) -/

/-- From HALTED, a HALT is a run of moves. -/
theorem State.haltCell_moves (s : State) (src : HaltSource) : State.Moves { s with mode := .halted } (s.haltCell src) := by
  have hnotice (p : Party) : (Notice.halted src).allowedAt p = true := Notice.allowedAt_of_code_eq p (by simp [Notice.code])
  exact (((((((((State.Moves.refl _).cancelPending .A .halt).cancelPending .B .halt).cancelPending .C .halt).haltArm
    .A).haltArm .B).grantScan).raise .A _ (hnotice .A)).raise .B _ (hnotice .B)).raise .C _ (hnotice .C)

/-! ### The claims of an evicted arm (R96) -/

/-- After an eviction's walk over slots, those walked over are EMPTY. -/
theorem State.slot_evictSlots (p : Party) (l : List SlotNo) (acc : State × Nat × Nat)
    (hpending : ∀ j, (acc.1.slot p j).state ≠ .pending) (j : SlotNo) (hj : j ∈ l ∨ acc.1.slot p j = .empty) :
    (l.foldl (evictSlot p) acc).1.slot p j = .empty := by
  induction l generalizing acc with
  | nil => exact hj.resolve_left List.not_mem_nil
  | cons k l ih =>
    have hstep : (∀ i, ((evictSlot p acc k).1.slot p i).state ≠ .pending) ∧
        (j = k ∨ acc.1.slot p j = .empty → (evictSlot p acc k).1.slot p j = .empty) := by
      unfold evictSlot
      split
      · rename_i hnone
        refine ⟨hpending, fun hj => ?_⟩
        obtain rfl | hj := hj
        · have hstate := hpending j
          revert hnone hstate
          cases acc.1.slot p j <;> simp [Claim.heldRect, Claim.state]
        · exact hj
      · rename_i hheld
        have hslot (i : SlotNo) := State.slot_releaseSlot acc.1 p p k i (by rw [hheld]; rfl)
        simp only [if_pos] at hslot
        refine ⟨fun i => ?_, fun hj => ?_⟩
        · dsimp only
          rw [hslot]
          split_ifs
          · simp [Claim.state]
          · obtain hsame | ⟨-, hheld⟩ := (acc.1.slot p i).state_unlink_cases k
            · rw [hsame]; exact hpending i
            · simp [hheld]
        · dsimp only
          rw [hslot]
          split_ifs with hk
          · rfl
          · rw [hj.resolve_left hk]; rfl
    refine ih _ hstep.1 ?_
    by_cases hk : j = k
    · exact .inr (hstep.2 (.inl hk))
    · exact hj.imp (fun h => (List.mem_cons.mp h).resolve_left hk) fun h => hstep.2 (.inr h)

theorem evictTrip_empties (x : Arm) (acc : State × Nat × Nat) :
    (evictTrip x acc).1.tripTiles x = [] ∧ ∀ p k, (evictTrip x acc).1.slot p k = acc.1.slot p k := by
  unfold evictTrip
  split
  · exact ⟨‹_›, fun _ _ => rfl⟩
  · exact ⟨by simp [State.releaseTrip], fun p k => by simp [State.releaseTrip]⟩

/-- A cancellation leaves its party without a PENDING claim. -/
theorem State.QueueOrder.not_pending_cancelPending {s : State} (h : s.QueueOrder) (p : Party) (c : CancelCause)
    (k : SlotNo) : ((s.cancelPending p c).slot p k).state ≠ .pending := by
  by_cases hk : (s.slot p k).state = .pending
  · rw [(h.cancelled c hk).1]; simp [Claim.state]
  · rw [State.slot_cancelPending_of_left (.inl hk)]; exact hk

/-- An eviction leaves every slot of the arm EMPTY, with slot 4 (R96). -/
theorem State.slot_evictClaims {s : State} (h : s.QueueOrder) (x : Arm) :
    (∀ k, (s.evictClaims x).1.slot x.party k = .empty) ∧ (s.evictClaims x).1.tripTiles x = [] := by
  unfold State.evictClaims
  dsimp only
  refine ⟨fun k => ?_, (evictTrip_empties x _).1⟩
  rw [(evictTrip_empties x _).2]
  exact State.slot_evictSlots _ _ _ (fun j => h.not_pending_cancelPending _ _ j) k (.inl (mem_slotNos k))

/-- A party whose slots are EMPTY has no entry in the queue. -/
theorem State.QueueOrder.no_entry {s : State} (h : s.QueueOrder) {p : Party} (hslot : ∀ k, s.slot p k = .empty) :
    ∀ n ∈ s.queue, n.party ≠ p := by
  rintro ⟨q, k⟩ hn rfl
  rw [h.pending, State.arrivalOf, hslot] at hn
  cases hn

/-! ### Withdrawals (R94) -/

/-- The PENDING claim that a queue entry names has a tile with a property. -/
def State.meets (s : State) (f : Tile → Bool) (n : ClaimName) : Bool :=
  (s.waiter n).any fun w => (firstTile fun t => w.rect.contains t && f t).isSome

theorem State.slot_withdrawOver (f : Tile → Bool) (s : State) (n : ClaimName) (p : Party) (k : SlotNo) :
    (withdrawOver f s n).slot p k = if n = ⟨p, k⟩ ∧ s.meets f n = true then .empty else s.slot p k := by
  unfold withdrawOver State.meets
  split
  · rename_i hnone
    simp [hnone]
  · rename_i w hw
    rw [hw]
    split
    · rename_i hnone
      simp [hnone]
    · rename_i t ht
      rw [State.slot_raise, State.slot_removePending]
      simp only [Option.any_some, ht, Option.isSome_some, and_true]
      obtain ⟨q, j⟩ := n
      refine if_congr ?_ rfl rfl
      simp [eq_comm]

/-- After a walk of withdrawals, the claims that met the property are gone and no other slot has changed. -/
theorem State.slot_withdrawAll (f : Tile → Bool) (l : List ClaimName) (s : State) (p : Party) (k : SlotNo) :
    (l.foldl (withdrawOver f) s).slot p k =
      if (⟨p, k⟩ : ClaimName) ∈ l ∧ s.meets f ⟨p, k⟩ = true then .empty else s.slot p k := by
  induction l generalizing s with
  | nil => simp
  | cons n l ih =>
    have hslot := State.slot_withdrawOver f s n p k
    rw [List.foldl_cons, ih]
    by_cases hn : n = ⟨p, k⟩ ∧ s.meets f n = true
    · rw [if_pos hn] at hslot
      obtain ⟨rfl, hmeets⟩ := hn
      simp [hslot, hmeets]
    · rw [if_neg hn] at hslot
      have hmeets : (withdrawOver f s n).meets f ⟨p, k⟩ = s.meets f ⟨p, k⟩ := by
        simp only [State.meets, State.waiter, hslot]
      rw [hmeets, hslot]
      refine if_congr ?_ rfl rfl
      simp only [List.mem_cons]
      constructor
      · rintro ⟨hl, hm⟩; exact ⟨.inr hl, hm⟩
      · rintro ⟨rfl | hl, hm⟩
        · exact absurd ⟨rfl, hm⟩ hn
        · exact ⟨hl, hm⟩

/-- A walk of withdrawals does not look at the tiles or the closing-tile count. -/
theorem withdrawAll_ground (f : Tile → Bool) (l : List ClaimName) (s : State) (m : TileMap) (n : Nat) :
    l.foldl (withdrawOver f) { s with tiles := m, closing := n } =
      { l.foldl (withdrawOver f) s with tiles := m, closing := n } := by
  have hstep (v : State) (a : ClaimName) :
      withdrawOver f { v with tiles := m, closing := n } a = { withdrawOver f v a with tiles := m, closing := n } := by
    unfold withdrawOver
    rw [show ({ v with tiles := m, closing := n } : State).waiter a = v.waiter a from rfl]
    split
    · rfl
    · split
      · rfl
      · unfold State.raise State.setPort State.port
        cases a.party <;> rfl
  induction l generalizing s with
  | nil => rfl
  | cons a l ih => rw [List.foldl_cons, List.foldl_cons, hstep, ih]

end Sys2Proof.Machine
end

section
/-! SUPPORT. The laws of claims and tiles, kept by every command. -/

namespace Sys2Proof.Machine

open Sys2Proof

/-! ### SETUP (R149) -/

/-- No claim stands: the claim table is EMPTY, no tile is held and none is CLOSING, and both arms are OFFLINE. -/
structure State.Free (s : State) : Prop where
  offline : ∀ x, s.guardState x = .offline
  slot : ∀ p k, s.slot p k = .empty
  trip : ∀ x, s.tripTiles x = []
  tile : ∀ z, (s.tile z).owner = none ∧ (s.tile z).hold = 0 ∧ (s.tile z).service ≠ .closing
  closing : s.closing = 0

theorem State.Free.gridLaw {s : State} (h : s.Free) (hparams : s.params.Law) : s.GridLaw where
  params := hparams
  covers x hx := absurd (h.offline x) hx
  slots := .of_empty h.slot
  trips x := by rw [State.TripLaw, h.trip]; simp
  ground := .of_free h.slot h.trip h.tile h.closing

/-- In SETUP no claim stands. -/
theorem State.GridLaw.free {s : State} (h : s.GridLaw) (hmode : s.mode = .setup) (hoffline : ∀ x, s.guardState x = .offline) :
    s.Free := by
  have hslot (p : Party) (k : SlotNo) : s.slot p k = .empty := by
    by_contra hne
    exact (h.slots.standing p k fun hs => hne (Claim.state_eq_empty.mp hs)).1 hmode
  have htrip (x : Arm) : s.tripTiles x = [] := by
    by_contra hne
    have := (h.trips x).1 hne
    rw [hoffline] at this
    cases this
  have hholds (p : Party) (z : Tile) : s.holdsOf p z = 0 := by
    simp [State.holdsOf_eq, hslot, Claim.holdsTile_of_none (c := .empty) rfl, State.tripHolds, State.inTrip, htrip,
      Option.elim]
    cases p.arm <;> rfl
  have htile (z : Tile) : (s.tile z).owner = none ∧ (s.tile z).hold = 0 ∧ (s.tile z).service ≠ .closing := by
    obtain ⟨hzero, hcount, -, -, hclosing⟩ := h.ground.tiles z
    have hhold : (s.tile z).hold = 0 := by
      cases howner : (s.tile z).owner with
      | none => exact hzero.mp howner
      | some p => have := hcount p; rw [hholds, howner, if_pos rfl] at this; exact this.symm
    have howner := hzero.mpr hhold
    exact ⟨howner, hhold, fun hc => hclosing hc howner⟩
  refine ⟨hoffline, hslot, htrip, htile, ?_⟩
  have := h.ground.closing
  rw [State.ClosingLaw] at this
  rw [this, countTiles_eq_zero]
  intro z
  simpa using (htile z).2.2

/-- An arm of which no slot is held has EMPTY slots (R124). -/
theorem State.empty_of_firstHolding {s : State} {x : Arm} (h : s.firstHolding x = none) :
    (∀ k, s.slot x.party k = .empty) ∧ s.tripTiles x = [] := by
  unfold State.firstHolding at h
  split at h
  · cases h
  · rename_i hnone
    rw [List.find?_eq_none] at hnone
    split at h
    · refine ⟨fun k => ?_, ‹_›⟩
      have := hnone k (mem_slotNos k)
      exact Claim.state_eq_empty.mp (by simpa using this)
    · cases h

/-! ### Tiles under BLOCK and UNBLOCK (R13, R17) -/

theorem TileRecord.block_parts (q : TileRecord) : q.block.owner = q.owner ∧ q.block.hold = q.hold ∧
    q.block.speedClass = q.speedClass := by
  unfold TileRecord.block
  split_ifs <;> simp

theorem TileRecord.block_service (q : TileRecord) : q.block.service =
    if q.service = .opened then (if q.owner = none then .blocked else .closing) else q.service := by
  unfold TileRecord.block TileRecord.blocksToClosing TileRecord.blocksToBlocked
  cases hs : q.service <;> cases ho : q.owner <;> simp [hs]

namespace State.GridLaw

variable {s t : State}

/-! ### New claims (R65, R67, R104) -/

theorem enqueue (h : s.GridLaw) (horder : s.QueueOrder) {p : Party} {k : SlotNo} {r : Rect} {l : Option SlotNo}
    (hclaim : s.Placeable p k r l) : (s.enqueue p k r l).GridLaw := by
  have hsame : s.SameArms (s.enqueue p k r l) := ⟨by simp, by simp, by simp⟩
  have hnew : (s.enqueue p k r l).slot p k = .pending r ⟨s.nextArrival, 0, false⟩ l := by rw [State.slot_enqueue]; simp
  have hothers (q : Party) (j : SlotNo) (hj : q ≠ p ∨ j ≠ k) : (s.enqueue p k r l).slot q j = s.slot q j := by
    rw [State.slot_enqueue, if_neg (by tauto)]
  have hempty := hclaim.slot_empty
  have htrip (x : Arm) : (s.enqueue p k r l).tripTiles x = s.tripTiles x := by
    simp [State.enqueue, State.setSlot, State.tripTiles]
  refine ⟨hsame.params ▸ h.params, fun x => hsame.coverLaw (h.covers x),
    h.slots.of_setSlot hnew hothers hsame.params hsame.mayHold (by simp [hempty, Claim.state]) (fun q hq => ?_)
      (by simp [Claim.state]) (fun j hj => ?_) (fun _ => hsame.mayHold p hclaim.mayHold)
      (fun _ j _ => hclaim.not_pending horder j),
    fun x => hsame.tripLaw htrip (h.trips x), ?_⟩
  · obtain rfl : r = q := Option.some.inj hq
    exact hclaim.rect
  · obtain ⟨hne, ⟨q, hq⟩, hnodrain⟩ := hclaim.of_link h.slots (show l = some j from hj)
    exact ⟨rfl, hne, by rw [hq]; rfl, by rw [hq]; rfl, hnodrain⟩
  · refine h.ground.of_tiles (fun z => by simp) (fun q z => State.holdsOf_congr (fun j => ?_) (State.tripHolds_congr htrip z))
      (by simp) (fun z hz => by rw [hsame.params]; exact h.ground.active hz) fun q j r' w m hj z hz => ?_
    · rw [State.slot_enqueue]
      split_ifs with hq
      · rw [hq.1, hq.2, hempty]; rfl
      · rfl
    · rw [State.slot_enqueue] at hj
      split_ifs at hj
      · cases hj; exact hclaim.service hz
      · exact h.ground.opened q j r' w m hj z hz

theorem grantAtOnce (h : s.GridLaw) (horder : s.QueueOrder) {p : Party} {k : SlotNo} {r : Rect} {l : Option SlotNo}
    (hclaim : s.Placeable p k r l) (hgrant : s.grantable p r s.nextArrival = true) : (s.grant ⟨p, k⟩ r l).1.GridLaw := by
  have hmove := State.Move.grant (s.enqueue p k r l) ⟨p, k⟩ _ (State.Placeable.waiter_enqueue s p k r l)
    (State.grantable_enqueue l hgrant)
  rw [State.grant_enqueue] at hmove
  exact (h.enqueue horder hclaim).move hmove

/-! ### Joining, leaving and re-arming (R120, R124, R125, R127) -/

theorem joins (h : s.GridLaw) {x : Arm} (hx : s.guardState x = .offline) : (s.joins x).GridLaw := by
  have hstate : (s.joins x).guardState x = .arming := by simp [State.joins, State.guardState]
  have hother (y : Arm) (hy : y ≠ x) : (s.joins x).arm y = s.arm y := by
    simp [State.joins, State.arm_setArm_of_ne _ _ hy]
  have hguard (y : Arm) (hy : y ≠ x) : (s.joins x).guardState y = s.guardState y := by
    rw [State.guardState, hother y hy]; rfl
  refine h.of_same (fun p k => by simp [State.joins]) (fun y => by simp [State.joins]) (fun z => by simp [State.joins])
    (by simp [State.joins]) (by simp [State.joins]) (fun p _ hp => ⟨by simpa [State.joins] using hp.1, fun y hy => ?_⟩)
    (fun y _ hy => ?_) fun y hy z hz => ?_
  · obtain rfl | hne := eq_or_ne y x
    · simp [hstate]
    · rw [hguard y hne]; exact hp.2 y hy
  · obtain rfl | hne := eq_or_ne y x
    · rw [hx] at hy; cases hy
    · rw [hguard y hne]; exact hy
  · obtain rfl | hne := eq_or_ne y x
    · simp [State.touches, State.joins] at hz
    · have hactive := h.covers y (hguard y hne ▸ hy) z ((State.touches_congr (by rw [hother y hne]) z).symm.trans hz)
      simpa [State.joins] using hactive

theorem goOffline (h : s.GridLaw) {x : Arm} (hslot : ∀ k, s.slot x.party k = .empty) (htrip : s.tripTiles x = []) :
    (s.goOffline x).GridLaw := by
  have hother (y : Arm) (hy : y ≠ x) : (s.goOffline x).arm y = s.arm y := by
    simp [State.goOffline, State.arm_setArm_of_ne _ _ hy]
  have hguard (y : Arm) (hy : y ≠ x) : (s.goOffline x).guardState y = s.guardState y := by
    rw [State.guardState, hother y hy]; rfl
  refine h.of_same (fun p k => by simp) (fun y => by simp) (fun z => by simp) (by simp) (by simp)
    (fun p hheld hp => ⟨by simpa using hp.1, fun y hy => ?_⟩) (fun y hne hy => ?_) fun y hy z hz => ?_
  · have hne : y ≠ x := fun he => by
      obtain ⟨k, hk⟩ := hheld
      rw [Party.eq_party_of_arm hy, he] at hk
      exact hk (hslot k)
    rw [hguard y hne]; exact hp.2 y hy
  · have hyx : y ≠ x := fun he => hne (he ▸ htrip)
    rw [hguard y hyx]; exact hy
  · have hyx : y ≠ x := fun he => hy (by rw [he]; simp [State.goOffline, State.guardState])
    have hactive := h.covers y (hguard y hyx ▸ hy) z ((State.touches_congr (by rw [hother y hyx]) z).symm.trans hz)
    simpa using hactive

theorem rearms (h : s.GridLaw) {x : Arm} (htrip : s.tripTiles x = []) {g : Guard} (hg : g.state = .arming)
    (hx : s.guardState x ≠ .offline) : (s.setGuard x g).GridLaw := by
  have hguard (y : Arm) (hy : y ≠ x) : (s.setGuard x g).guardState y = s.guardState y := by
    rw [State.guardState, State.arm_setGuard_of_ne _ _ hy]; rfl
  refine h.of_same (fun p k => by simp) (fun y => by simp) (fun z => by simp) (by simp) (by simp)
    (fun p _ hp => ⟨by simpa using hp.1, fun y hy => ?_⟩) (fun y hne hy => ?_) fun y hy z hz => ?_
  · obtain rfl | hyx := eq_or_ne y x
    · simp [State.guardState, hg]
    · rw [hguard y hyx]; exact hp.2 y hy
  · have hyx : y ≠ x := fun he => hne (he ▸ htrip)
    rw [hguard y hyx]; exact hy
  · have hjoined : s.guardState y ≠ .offline := by
      obtain rfl | hyx := eq_or_ne y x
      · exact hx
      · exact hguard y hyx ▸ hy
    have hactive := h.covers y hjoined z ((State.touches_congr (by simp) z).symm.trans hz)
    simpa using hactive

theorem evicts (h : s.GridLaw) (horder : s.QueueOrder) (x : Arm) : (s.evicts x).1.GridLaw := by
  have hmoves := (State.Moves.refl s).evictClaims x
  obtain ⟨hslot, htrip⟩ := State.slot_evictClaims horder x
  have hentries := (horder.moves hmoves).no_entry hslot
  refine ((h.moves hmoves.grantScan).goOffline (x := x) (fun k => ?_) ?_).raise _ _
  · rw [State.slot_grantScan_of_no_entry hentries]; exact hslot k
  · rw [State.tripTiles_grantScan]; exact htrip

/-! ### BLOCK and UNBLOCK (R13, R17) -/

theorem blockRequest (h : s.GridLaw) (horder : s.QueueOrder) (c0 c1 r0 r1 : Byte) :
    (blockRequest c0 c1 r0 r1 s).1.GridLaw := by
  unfold Machine.blockRequest
  split
  · exact h
  · split
    · exact h
    · rename_i r b hrect
      dsimp only
      generalize hf : (fun t => r.contains t && (s.tile t).service == .opened) = f
      rw [withdrawAll_ground]
      set u := s.queue.foldl (withdrawOver f) s with hu
      have hmoves : s.Moves u := (State.Moves.refl s).withdrawAll f s.queue
      have hgrid := h.moves hmoves
      have htile (z : Tile) : u.tile z = s.tile z := tile_withdrawAll f s.queue s z
      have hblock : State.GridLaw { u with
          tiles := s.tiles.update fun t q => if r.contains t = true then q.block else q,
          closing := s.closing + countTiles fun t => r.contains t && (s.tile t).blocksToClosing } := by
        set v : State := { u with
          tiles := s.tiles.update fun t q => if r.contains t = true then q.block else q,
          closing := s.closing + countTiles fun t => r.contains t && (s.tile t).blocksToClosing } with hv
        have hrecord (z : Tile) : v.tile z = if r.contains z = true then (s.tile z).block else s.tile z :=
          TileMap.get_update ..
        have hsame : u.SameArms v := ⟨rfl, rfl, fun _ => rfl⟩
        refine ⟨hgrid.params, fun x => hsame.coverLaw (hgrid.covers x),
          hgrid.slots.of_same (fun _ _ => rfl) rfl fun p _ => hsame.mayHold p, fun x => hsame.tripLaw (fun _ => rfl) (hgrid.trips x),
          hgrid.ground.of_services (fun z => ?_) (fun _ _ => rfl) rfl (fun z hz => ?_) (fun z hz => ?_) ?_
            fun p k q w l hk z hz => ?_⟩
        · rw [hrecord, htile]
          split_ifs
          · exact ⟨(s.tile z).block_parts.1, (s.tile z).block_parts.2.1⟩
          · exact ⟨rfl, rfl⟩
        · obtain ⟨-, -, -, hblocked, -⟩ := h.ground.tiles z
          rw [hrecord] at hz
          rw [htile]
          split_ifs at hz
          · rw [TileRecord.block_service] at hz
            split_ifs at hz with hopened howner
            · exact howner
            · exact hblocked hz
          · exact hblocked hz
        · obtain ⟨-, -, -, -, hclosing⟩ := h.ground.tiles z
          rw [hrecord] at hz
          rw [htile]
          split_ifs at hz
          · rw [TileRecord.block_service] at hz
            split_ifs at hz with hopened howner
            · exact howner
            · exact hclosing hz
          · exact hclosing hz
        · have hcount := h.ground.closing
          rw [State.ClosingLaw] at hcount ⊢
          change s.closing + _ = _
          rw [hcount, countTiles_split (fun z => (v.tile z).service == .closing) fun z => (s.tile z).service == .closing]
          congr 1
          · refine congrArg countTiles (funext fun z => ?_)
            rw [hrecord]
            split_ifs
            · rw [TileRecord.block_service]
              cases hs : (s.tile z).service <;> simp
            · simp
          · refine congrArg countTiles (funext fun z => ?_)
            rw [hrecord]
            cases hz : r.contains z
            · simp
            · simp only [if_true, Bool.true_and, TileRecord.block_service, TileRecord.blocksToClosing]
              cases hs : (s.tile z).service <;> cases ho : (s.tile z).owner <;> simp
        · have hkept := State.slot_withdrawAll f s.queue s p k
          rw [← hu, show u.slot p k = .pending q w l from hk] at hkept
          split_ifs at hkept with hgone
          have hentry : (⟨p, k⟩ : ClaimName) ∈ s.queue := by rw [horder.pending, State.arrivalOf, ← hkept]; rfl
          have hopened := h.ground.opened p k q w l hkept.symm z hz
          have hnot : r.contains z = false := by
            by_contra hr
            refine hgone ⟨hentry, ?_⟩
            rw [State.meets, State.waiter, ← hkept]
            simp only [Option.any_some, firstTile_isSome]
            exact ⟨z, by simp [hz, ← hf, hopened, hr]⟩
          rw [hrecord, hnot]
          exact hopened
      split
      · exact hblock.moves (State.Moves.refl _).grantScan
      · exact hblock

theorem unblockRequest (h : s.GridLaw) (c0 c1 r0 r1 : Byte) : (unblockRequest c0 c1 r0 r1 s).1.GridLaw := by
  unfold Machine.unblockRequest
  split
  · exact h
  · split
    · exact h
    · rename_i r b hrect
      dsimp only
      refine GridLaw.moves ?_ (State.Moves.refl _).grantScan
      set u : State := { s with
        tiles := s.tiles.update fun t q => if r.contains t = true then { q with service := .opened } else q } with hu
      set v := u.lowerClosing (countTiles fun t => r.contains t && (s.tile t).service == .closing) with hv
      have hrecord (z : Tile) : v.tile z = if r.contains z = true then { s.tile z with service := .opened } else s.tile z := by
        rw [hv, tile_lowerClosing]; exact TileMap.get_update ..
      have hservice (z : Tile) (sv : Service) (hz : (v.tile z).service = sv) : sv = .opened ∨ (s.tile z).service = sv := by
        rw [hrecord] at hz
        split_ifs at hz
        · exact .inl hz.symm
        · exact .inr hz
      have hsame : s.SameArms v := ⟨by simp [hv, hu], by simp [hv, hu], fun x => by rw [hv, arm_lowerClosing]; rfl⟩
      have hslot (p : Party) (k : SlotNo) : v.slot p k = s.slot p k := by rw [hv, slot_lowerClosing]; rfl
      have htrip (x : Arm) : v.tripTiles x = s.tripTiles x := by rw [hv, tripTiles_lowerClosing]; rfl
      refine ⟨hsame.params ▸ h.params, fun x => hsame.coverLaw (h.covers x),
        h.slots.of_same hslot hsame.params fun p _ => hsame.mayHold p, fun x => hsame.tripLaw htrip (h.trips x),
        h.ground.of_services (fun z => ?_) (fun p z => State.holdsOf_congr (fun k => by rw [hslot]) (State.tripHolds_congr htrip z))
          hsame.params (fun z hz => ?_) (fun z hz => ?_) ?_ fun p k q w l hk z hz => ?_⟩
      · rw [hrecord]; split_ifs <;> exact ⟨rfl, rfl⟩
      · obtain ⟨-, -, -, hblocked, -⟩ := h.ground.tiles z
        obtain hopened | hs := hservice z _ hz
        · cases hopened
        · exact hblocked hs
      · obtain ⟨-, -, -, -, hclosing⟩ := h.ground.tiles z
        obtain hopened | hs := hservice z _ hz
        · cases hopened
        · exact hclosing hs
      · have hcount := h.ground.closing
        have hleft : (fun z => (v.tile z).service == .closing) = fun z => (s.tile z).service == .closing && !r.contains z := by
          funext z
          rw [hrecord]
          cases hz : r.contains z
          · simp
          · simp
        have hsplit := countTiles_split (fun z => (s.tile z).service == .closing) r.contains
        simp only [Bool.and_comm _ (r.contains _)] at hsplit hleft
        rw [State.ClosingLaw] at hcount ⊢
        have hclosing : v.closing = s.closing - countTiles fun t => r.contains t && (s.tile t).service == .closing := by
          rw [hv]; unfold State.lowerClosing; dsimp only; split_ifs <;> simp [hu]
        rw [hclosing, hleft, hcount, hsplit]
        simp only [Bool.and_comm _ (!r.contains _)]
        omega
      · rw [hslot] at hk
        rw [hrecord]
        split_ifs
        · rfl
        · exact h.ground.opened p k q w l hk z hz

end State.GridLaw

/-! ### Changes of the free cell (R9, R151, R159) -/

theorem State.arm_stopRequest {s : State} (hmode : s.mode ≠ .setup) (x : Arm) :
    (stopRequest s).1.arm x = (s.goOffline x).arm x := by
  rw [stopRequest, if_neg hmode]
  dsimp only
  rw [State.arm_raise, State.arm_raise]
  change ((s.clearClaims.goOffline .A).goOffline .B).arm x = _
  cases x with
  | A =>
    rw [State.goOffline, State.arm_setArm_of_ne _ _ (by decide)]
    simp [State.goOffline]
  | B =>
    have hother : (s.clearClaims.goOffline .A).arm .B = s.arm .B := by
      rw [State.goOffline, State.arm_setArm_of_ne _ _ (by decide), arm_clearClaims]
    rw [State.goOffline, State.arm_setArm, hother]
    simp [State.goOffline]

theorem State.tripTiles_clearClaims (s : State) (x : Arm) : s.clearClaims.tripTiles x = [] := by
  unfold State.clearClaims
  dsimp only
  split <;> cases x <;> rfl

theorem State.closing_clearClaims (s : State) : s.clearClaims.closing = 0 := by
  unfold State.clearClaims
  dsimp only
  split <;> simp

theorem State.free_stopRequest {s : State} (hmode : s.mode ≠ .setup) : (stopRequest s).1.Free := by
  have harm := State.arm_stopRequest hmode
  refine ⟨fun x => by rw [State.guardState, harm]; simp [State.goOffline], fun p k => ?_, fun x => ?_, fun z => ?_, ?_⟩
  all_goals rw [stopRequest, if_neg hmode]; dsimp only
  · simp only [State.slot_raise]
    exact (slot_goOffline ..).trans ((slot_goOffline ..).trans (State.QueueLaw.slot_clearClaims s p k))
  · simp only [State.tripTiles_raise]
    exact (tripTiles_goOffline ..).trans ((tripTiles_goOffline ..).trans (State.tripTiles_clearClaims s x))
  · simp only [State.tile_raise]
    have htile : ((s.clearClaims.goOffline .A).goOffline .B).tile z = (s.tile z).stopped := by
      rw [tile_goOffline, tile_goOffline, State.tile_clearClaims]
    refine (congrArg (fun q : TileRecord => q.owner = none ∧ q.hold = 0 ∧ q.service ≠ .closing) htile).mpr ?_
    unfold TileRecord.stopped
    refine ⟨rfl, rfl, ?_⟩
    cases hs : (s.tile z).service <;> simp
  · simp [State.closing_clearClaims]

/-- An entry sets OPEN or BLOCKED, or leaves the service (R11). -/
theorem entryValue_service {e : Byte} {v : Service × Fin 4} (h : entryValue e = some v) : v.1 ≠ .closing ∧
    (v.1 = .opened ∨ v.1 = .blocked) := by
  unfold entryValue at h
  dsimp only at h
  split_ifs at h <;> cases h <;> simp

theorem TileRecord.writeEntry_parts (q : TileRecord) (eff : List (Nat × Byte)) (col : Nat) :
    (q.writeEntry eff col).owner = q.owner ∧ (q.writeEntry eff col).hold = q.hold ∧
      ((q.writeEntry eff col).service = q.service ∨ (q.writeEntry eff col).service ≠ .closing ∧
        ((q.writeEntry eff col).service = .opened ∨ (q.writeEntry eff col).service = .blocked)) := by
  unfold TileRecord.writeEntry
  split
  · exact ⟨rfl, rfl, .inl rfl⟩
  · split
    · exact ⟨rfl, rfl, .inl rfl⟩
    · exact ⟨rfl, rfl, .inr (entryValue_service ‹_›)⟩

theorem State.Free.writeRowRequest {s : State} (h : s.Free) (row start : Byte) (entries : List Byte) :
    (writeRowRequest row start entries s).1.Free := by
  unfold Machine.writeRowRequest
  split_ifs
  · exact h
  · exact h
  · exact h
  · refine ⟨h.offline, h.slot, h.trip, fun z => ?_, h.closing⟩
    obtain ⟨howner, hhold, hservice⟩ := h.tile z
    rw [State.tile_withTiles, TileMap.get_update]
    split_ifs
    · obtain ⟨hkeptOwner, hkeptHold, hwritten⟩ := TileRecord.writeEntry_parts (s.tiles.get z)
        (effectiveEntries s.params.ncol start.toNat entries) z.col.val
      exact ⟨hkeptOwner.trans howner, hkeptHold.trans hhold, hwritten.elim (fun h => h ▸ hservice) And.left⟩
    · exact ⟨howner, hhold, hservice⟩

/-! ### Every command -/

namespace State.GridLaw

variable {s t : State}

theorem haltCell (h : s.GridLaw) (src : HaltSource) : (s.haltCell src).GridLaw := by
  refine GridLaw.moves (s := { s with mode := .halted }) ?_ (s.haltCell_moves src)
  exact h.of_same (fun _ _ => rfl) (fun _ => rfl) (fun _ => rfl) rfl rfl (fun p _ hp => ⟨by simp, hp.2⟩)
    (fun x _ hx => hx) h.covers

theorem serves {c : Instr} (hserves : State.Serves c s t) (h : s.GridLaw) (hmode : s.ModeLaw) (horder : s.QueueOrder) :
    t.GridLaw := by
  have hoffline (hsetup : s.mode = .setup) (x : Arm) : s.guardState x = .offline := (hmode.1 x).2.2.1 hsetup
  cases hserves with
  | unchanged => exact h
  | acknowledges p _ _ codes =>
    exact h.of_sameArms ⟨by simp, by simp, by simp⟩ (fun q k => by simp [Claim.SameShape.refl]) (by simp) (by simp) (by simp)
  | joins x _ _ _ _ _ hx => exact h.joins hx
  | leaves x _ _ _ _ hholding =>
    obtain ⟨hslot, htrip⟩ := State.empty_of_firstHolding hholding
    exact h.goOffline hslot htrip
  | rearms x _ _ _ _ hx htrip => exact h.rearms htrip rfl (by simp [hx])
  | evicts x => exact h.evicts horder x
  | grants _ p k r _ hclaim hgrant => exact h.grantAtOnce horder hclaim hgrant
  | shifts _ p k source r _ hclaim hgrant =>
    exact (h.grantAtOnce horder hclaim hgrant).moves (s.settleShift_moves p k source r)
  | queues _ p k r link _ hclaim => exact h.enqueue horder hclaim
  | withdraws _ p k w _ hw => exact h.moves ((State.Moves.refl s).step (.remove s _ w hw)).grantScan
  | releases _ p k _ hheld => exact h.moves ((State.Moves.refl s).step (.release s p k hheld)).grantScan
  | releasesTrip _ x => exact h.moves ((State.Moves.refl s).step (.releaseTrip s x)).grantScan
  | blocks _ c0 c1 r0 r1 => exact h.blockRequest horder c0 c1 r0 r1
  | unblocks _ c0 c1 r0 r1 => exact h.unblockRequest c0 c1 r0 r1
  | writes _ row start entries _ hsetup =>
    refine ((h.free hsetup (hoffline hsetup)).writeRowRequest row start entries).gridLaw ?_
    unfold writeRowRequest
    split_ifs <;> exact h.params
  | sets _ ident value _ hsetup range hrange =>
    have hfree := h.free hsetup (hoffline hsetup)
    exact State.Free.gridLaw ⟨hfree.offline, hfree.slot, hfree.trip, hfree.tile, hfree.closing⟩ (h.params.write _ hrange)
  | starts _ _ hsetup =>
    exact h.of_same (fun _ _ => rfl) (fun _ => rfl) (fun _ => rfl) rfl rfl (fun p _ hp => absurd hsetup hp.1)
      (fun x _ hx => hx) h.covers
  | stops _ _ hsetup => exact (State.free_stopRequest hsetup).gridLaw (by
      rw [stopRequest, if_neg hsetup]; simpa using h.params)
  | halts => exact h.haltCell .request
  | clearsHalt =>
    exact h.of_same (fun _ _ => rfl) (fun _ => rfl) (fun _ => rfl) rfl rfl (fun p _ hp => ⟨by simp, hp.2⟩)
      (fun x _ hx => hx) h.covers

theorem placeReply (h : s.GridLaw) (p : Party) (tag : BitVec 4) (kind : Byte) (a : Answer) :
    (s.placeReply p tag kind a).GridLaw :=
  h.of_sameArms ⟨by simp, by simp, by simp⟩ (fun q k => by simp [Claim.SameShape.refl]) (by simp) (by simp) (by simp)

theorem placeRestarted (h : s.GridLaw) (p : Party) : (s.placeRestarted p).GridLaw :=
  h.of_sameArms ⟨by simp, by simp, by simp⟩ (fun q k => by simp [Claim.SameShape.refl]) (by simp) (by simp) (by simp)

theorem shifts (h : s.GridLaw) (p : Party) (f : Frame) : (s.shifts p f).GridLaw :=
  h.of_sameArms ⟨by simp, by simp, by simp⟩ (fun q k => by simp [Claim.SameShape.refl]) (by simp) (by simp) (by simp)

theorem setPort (h : s.GridLaw) (p : Party) (q : Port) : (s.setPort p q).GridLaw :=
  h.of_sameArms ⟨by simp, by simp, by simp⟩ (fun q k => by simp [Claim.SameShape.refl]) (by simp) (by simp) (by simp)

/-- The pin, the level, the hold and the model's own fields are no matter of claims and tiles. -/
theorem of_outer (h : s.GridLaw) (held pin level : Bool) (free : Nat) (pending : List Instr) :
    State.GridLaw { s with held := held, haltPinLow := pin, haltLevel := level, freeCount := free, pending := pending } :=
  h.of_sameArms ⟨rfl, rfl, fun _ => rfl⟩ (fun _ _ => .refl _) (fun _ => rfl) (fun _ => rfl) rfl

theorem assertLine (h : s.GridLaw) : s.assertLine.GridLaw := by
  have hraised := (h.of_outer s.held s.haltPinLow true s.freeCount s.pending).raise .C (.haltLine s.mode)
  unfold State.assertLine
  dsimp only
  split
  · exact hraised.haltCell .line
  · exact hraised

theorem raiseYield (h : s.GridLaw) (p : Party) (k : SlotNo) (r : Rect) : (s.raiseYield p k r).GridLaw :=
  h.of_sameArms ⟨by simp, by simp, by simp⟩ (fun q k => by simp [Claim.SameShape.refl]) (by simp) (by simp) (by simp)

theorem of_reset : (State.reset).GridLaw := by
  obtain ⟨-, -, hclosing, -, htile, hslot, htrip, harm, -, -, hlawful, -, -⟩ := resetValues
  exact State.Free.gridLaw ⟨fun x => by rw [State.guardState, harm], hslot, htrip, fun z => by simp [htile], hclosing⟩
    hlawful.params

theorem does {c : Instr} (hdoes : State.Does c s t) (h : s.GridLaw) (hmode : s.ModeLaw) (hqueue : s.QueueLaw) :
    t.GridLaw := by
  cases hdoes with
  | nothing => exact h
  | serves _ q _ u a hq htaken hserves ht =>
    have hmoves := (State.Moves.refl s).afterReport q.port q.rep
    exact ((h.moves hmoves).serves hserves (hmode.moves hmoves) (hqueue.moves hmoves).order).placeReply _ _ _ _
  | heldExchange p f _ _ g n => exact (h.shifts p g).of_outer _ _ _ _ _
  | emptyExchange p f _ _ _ g => exact h.shifts p g
  | takes p f _ _ _ g => exact (h.shifts p g).setPort p _
  | overruns p f _ _ g => exact (h.shifts p g).raise p _
  | refuses p _ tag kind a => exact h.placeReply p tag kind a
  | periodExpires x _ htimer => exact h.moves ((State.Moves.refl s).periodExpiry x htimer)
  | waitExpires p k _ w hw => exact ((h.removePending hw).raise p _).moves (State.Moves.refl _).grantScan
  | yieldAsked p k _ r w l hslot =>
    refine GridLaw.raiseYield ?_ p k r
    refine h.of_sameArms ⟨by simp, by simp, by simp⟩ (fun q j => ?_) (by simp) (by simp) (by simp)
    rw [State.slot_setSlot_eq]
    split_ifs with hq
    · rw [hq.1, hq.2, hslot]; exact ⟨rfl, rfl, rfl⟩
    · exact .refl _
  | heldLine _ _ _ _ b => exact h.of_outer s.held b s.haltLevel s.freeCount s.pending
  | lineAsserted => exact (h.of_outer s.held true s.haltLevel s.freeCount s.pending).assertLine
  | lineReleased => exact h.of_outer s.held false false s.freeCount s.pending
  | resets => exact of_reset.of_outer _ _ _ _ _
  | released _ u _ hu =>
    refine ((placeRestarted ?_ .A).placeRestarted .B).placeRestarted .C
    rw [hu]
    split_ifs
    · exact (h.of_outer false s.haltPinLow s.haltLevel s.freeCount s.pending).assertLine
    · exact h.of_outer false s.haltPinLow false s.freeCount s.pending

theorem takeSection (h : s.GridLaw) (x : Arm) (rep : Report) : (s.takeSection x rep).GridLaw :=
  (h.moves ((State.Moves.refl s).takeReport _ _)).setPort _ _

theorem elapse (h : s.GridLaw) (n : Nat) : (s.elapse n).GridLaw := by
  have hguard (x : Arm) : (s.elapse n).guardState x = s.guardState x := by cases x <;> rfl
  have hevaluation (x : Arm) : ((s.elapse n).arm x).evaluation = (s.arm x).evaluation := by cases x <;> rfl
  refine h.of_shape (fun p k => ?_) (fun x => by cases x <;> rfl) (by simp) (by simp) (by simp)
    (fun p _ hp => ⟨by simpa using hp.1, fun x hx => (hguard x).symm ▸ hp.2 x hx⟩)
    (fun x _ hx => (hguard x).trans hx) fun x hx z hz => ?_
  · rw [State.slot_elapse]
    cases s.slot p k <;> exact ⟨rfl, rfl, rfl⟩
  · rw [State.touches_congr (hevaluation x)] at hz
    simpa using h.covers x (hguard x ▸ hx) z hz

end State.GridLaw

end Sys2Proof.Machine
end

section
/-! SUPPORT. The laws of the counts of an arm, kept by every report, expiry, trip and command. -/

namespace Sys2Proof.Machine

open Sys2Proof

/-! ### The counts of one arm -/

/-- The law of the counts of an arm over its blocks and its parameters (R50, R117, R122, R142). -/
def ArmUnit.Counts (u : ArmUnit) (a : ArmParams) : Prop :=
  (u.guard.state ≠ .offline → u.monitor.missed ≤ a.staleLimit + 1) ∧
  (u.guard.state = .live →
    u.monitor.missed ≤ a.staleLimit ∧ u.guard.clean = a.rearmCount ∧ u.monitor.lastReport.isSome = true ∧
    (u.evaluation.any fun e => e.result.isNone && !e.retained) = true) ∧
  (u.guard.state = .arming → u.guard.clean < a.rearmCount) ∧
  (u.monitor.lastReport.all fun r => r.probes.head?.bind Probe.guarded == some .tool) = true ∧
  (u.guard.state ≠ .offline → 0 < a.elbowRadius →
    (u.monitor.lastReport.all fun r => r.probes.tail.head?.bind Probe.guarded == some .elbow) = true) ∧
  (u.guard.state = .tripped → u.guard.trip.isSome = true)

theorem State.countLaw_iff {s : State} {x : Arm} : s.CountLaw x ↔ (s.arm x).Counts (s.params.arm x) := Iff.rfl

/-- The counts of the Report Monitor of a joined arm. -/
structure Monitor.Kept (m : Monitor) (a : ArmParams) : Prop where
  missed : m.missed ≤ a.staleLimit + 1
  tool : (m.lastReport.all fun r => r.probes.head?.bind Probe.guarded == some .tool) = true
  elbow : 0 < a.elbowRadius → (m.lastReport.all fun r => r.probes.tail.head?.bind Probe.guarded == some .elbow) = true

namespace ArmUnit.Counts

variable {u v : ArmUnit} {a : ArmParams}

theorem kept (h : u.Counts a) (hjoined : u.guard.state ≠ .offline) : u.monitor.Kept a :=
  ⟨h.1 hjoined, h.2.2.2.1, h.2.2.2.2.1 hjoined⟩

theorem tool (h : u.Counts a) : (u.monitor.lastReport.all fun r => r.probes.head?.bind Probe.guarded == some .tool) = true :=
  h.2.2.2.1

theorem of_tripped (hkept : v.monitor.Kept a) (hstate : v.guard.state = .tripped) (htrip : v.guard.trip.isSome = true) :
    v.Counts a :=
  ⟨fun _ => hkept.missed, fun hl => by simp [hstate] at hl, fun ha => by simp [hstate] at ha, hkept.tool, fun _ => hkept.elbow,
    fun _ => htrip⟩

theorem of_arming (hkept : v.monitor.Kept a) (hstate : v.guard.state = .arming) (hclean : v.guard.clean < a.rearmCount) :
    v.Counts a :=
  ⟨fun _ => hkept.missed, fun hl => by simp [hstate] at hl, fun _ => hclean, hkept.tool, fun _ => hkept.elbow,
    fun ht => by simp [hstate] at ht⟩

theorem of_live {e : Evaluation} (hkept : v.monitor.Kept a) (hstate : v.guard.state = .live)
    (hmissed : v.monitor.missed ≤ a.staleLimit) (hclean : v.guard.clean = a.rearmCount)
    (hreport : v.monitor.lastReport.isSome = true) (he : v.evaluation = some e) (hresult : e.result = none)
    (hretained : e.retained = false) : v.Counts a :=
  ⟨fun _ => hkept.missed, fun _ => ⟨hmissed, hclean, hreport, by simp [he, hresult, hretained]⟩,
    fun ha => by simp [hstate] at ha, hkept.tool, fun _ => hkept.elbow, fun ht => by simp [hstate] at ht⟩

theorem of_offline (htool : (v.monitor.lastReport.all fun r => r.probes.head?.bind Probe.guarded == some .tool) = true)
    (hstate : v.guard.state = .offline) : v.Counts a := by
  refine ⟨fun h => absurd hstate h, fun h => ?_, fun h => ?_, htool, fun h => absurd hstate h, fun h => ?_⟩ <;>
    simp [hstate] at h

theorem of_trippedTo (h : u.monitor.Kept a) (htrip : u.TrippedTo v) : v.Counts a :=
  of_tripped (htrip.monitor ▸ h) htrip.state htrip.trip

end ArmUnit.Counts

/-! ### Evaluations (R37, R38) -/

/-- A CLEAR evaluation keeps no old envelope. -/
theorem State.retained_of_evaluate {s : State} {x : Arm} {rep : Report} {m : Nat} {e : Evaluation}
    (h : s.evaluate x rep m = some e) (hclear : e.result = none) : e.retained = false := by
  obtain ⟨⟨tool, elbow⟩, -, rfl⟩ := Option.map_eq_some_iff.mp h
  revert hclear
  unfold State.evaluateProbes
  dsimp only
  split <;> simp

/-! ### Trips -/

/-- The other arm of a whole trip is left, or trips (R137, R139). -/
theorem State.arm_tripOwn_other (s : State) (x : Arm) (c : Cause) :
    (s.tripOwn x c).arm x.other = s.arm x.other ∨
      s.trippable x.other = true ∧ (s.arm x.other).TrippedTo ((s.tripOwn x c).arm x.other) := by
  have hbegin : (s.tripBegin x c true none).arm x.other = s.arm x.other := arm_tripBegin_of_ne _ _ _ _ (Arm.other_ne x)
  have hsame (u : State) (h : u.arm x.other = s.arm x.other) : u.trippable x.other = s.trippable x.other := by
    simp [State.trippable, State.guardState, h]
  have himposed (u : State) (h : u.arm x.other = s.arm x.other) (d : Cause) (o : Option Tile) :
      (s.arm x.other).TrippedTo ((u.tripImposed x.other d o).arm x.other) := h ▸ trippedTo_tripImposed u x.other d o
  unfold State.tripOwn
  simp only [arm_grantScan, arm_announceTrip]
  have hcontact : ((s.tripBegin x c true none).contactTrip x).arm x.other = s.arm x.other ∨
      s.trippable x.other = true ∧ (s.arm x.other).TrippedTo (((s.tripBegin x c true none).contactTrip x).arm x.other) := by
    unfold State.contactTrip
    split
    · exact .inl hbegin
    · split
      · exact .inr ⟨hsame _ hbegin ▸ ‹_›, himposed _ hbegin _ _⟩
      · exact .inl hbegin
  generalize hu : ((s.tripBegin x c true none).contactTrip x).raiseIntrusion x _ = u
  rw [show ((s.tripBegin x c true none).contactTrip x).arm x.other = u.arm x.other by rw [← hu, arm_raiseIntrusion]] at hcontact
  unfold State.scopeTrip
  split
  · rename_i hscope
    obtain hleft | ⟨-, htripped⟩ := hcontact
    · exact .inr ⟨hsame _ hleft ▸ hscope.2, himposed _ hleft _ _⟩
    · have : u.trippable x.other = false := by simp [State.trippable, State.guardState, htripped.state]
      rw [this] at hscope
      exact absurd hscope.2 (by simp)
  · exact hcontact

/-- Every arm's counts are lawful. -/
def State.CountLaws (s : State) : Prop := ∀ y, (s.arm y).Counts (s.params.arm y)

namespace State.CountLaws

variable {s t : State}

theorem of_arms (h : s.CountLaws) (harm : ∀ y, t.arm y = s.arm y) (hparams : t.params = s.params) : t.CountLaws :=
  fun y => by rw [harm, hparams]; exact h y

theorem kept_of_trippable (h : s.CountLaws) {x : Arm} (hx : s.trippable x = true) : (s.arm x).monitor.Kept (s.params.arm x) :=
  (h x).kept fun ho => by
    have : s.guardState x = .offline := ho
    simp [State.trippable, this] at hx

/-- A trip keeps the counts of the other arm. -/
theorem tripOwn_other {x : Arm} (h : (s.arm x.other).Counts (s.params.arm x.other)) (c : Cause) :
    ((s.tripOwn x c).arm x.other).Counts (s.params.arm x.other) := by
  obtain hsame | ⟨htrippable, htrip⟩ := s.arm_tripOwn_other x c
  · rw [hsame]; exact h
  · refine .of_trippedTo (h.kept fun ho => ?_) htrip
    have : s.guardState x.other = .offline := ho
    simp [State.trippable, this] at htrippable

theorem tripOwn_own {x : Arm} (h : (s.arm x).monitor.Kept (s.params.arm x)) (c : Cause) :
    ((s.tripOwn x c).arm x).Counts (s.params.arm x) := by
  rw [arm_tripOwn]
  exact .of_trippedTo h (trippedTo_tripBegin s x c true none)

/-- The Guard Controller's action on an evaluation of its arm keeps the counts of the other arm. -/
theorem guardActs_other {x : Arm} (h : (s.arm x.other).Counts (s.params.arm x.other)) (e : Evaluation) (st : Start) :
    ((s.guardActs x e st).arm x.other).Counts (s.params.arm x.other) := by
  unfold State.guardActs
  split
  · exact h
  · split
    · rw [State.arm_countClean_of_ne _ _ (Arm.other_ne x)]; exact h
    · exact h
  · split
    · exact tripOwn_other h _
    · split
      · exact tripOwn_other h _
      · exact h
  · split
    · rw [State.arm_setGuard_of_ne _ _ (Arm.other_ne x)]; exact h
    · exact h

end State.CountLaws

/-- What the Guard Controller may take for granted of its arm at an evaluation. -/
structure State.ReadyFor (s : State) (x : Arm) (e : Evaluation) (st : Start) : Prop where
  evaluation : (s.arm x).evaluation = some e
  kept : (s.arm x).monitor.Kept (s.params.arm x)
  joined : s.guardState x ≠ .offline
  retained : e.result = none → e.retained = false
  live : s.guardState x = .live → st = .stale ∨ (s.arm x).monitor.missed ≤ (s.params.arm x).staleLimit
  clean : s.guardState x = .live → (s.arm x).guard.clean = (s.params.arm x).rearmCount
  report : (s.arm x).monitor.lastReport.isSome = true
  arming : s.guardState x = .arming → (s.arm x).guard.clean < (s.params.arm x).rearmCount
  fresh : st = .fresh → (s.arm x).monitor.missed ≤ (s.params.arm x).staleLimit
  tripped : s.guardState x = .tripped → (s.arm x).guard.trip.isSome = true
  rearm : 0 < (s.params.arm x).rearmCount

/-- The Guard Controller's action leaves lawful counts (R39, R121, R122, R144). -/
theorem State.ReadyFor.guardActs {s : State} {x : Arm} {e : Evaluation} {st : Start} (h : s.ReadyFor x e st) :
    ((s.guardActs x e st).arm x).Counts (s.params.arm x) := by
  cases hstate : s.guardState x with
  | offline => exact absurd hstate h.joined
  | arming =>
    have hclean := h.arming hstate
    have hset (g : Guard) (hg : g.state = .arming) (hc : g.clean < (s.params.arm x).rearmCount) :
        ((s.setGuard x g).arm x).Counts (s.params.arm x) := by
      rw [State.arm_setGuard]
      exact .of_arming h.kept hg hc
    rw [State.guardActs_arming hstate]
    split_ifs with hfresh
    · by_cases hc : e.Clean (s.params.arm x).creep
      · by_cases hcount : (s.params.arm x).rearmCount ≤ (s.arm x).guard.clean + 1
        · rw [State.countClean_live hc hcount, State.arm_raise, State.arm_setGuard]
          exact .of_live h.kept rfl (h.fresh hfresh) (by dsimp only; omega) h.report h.evaluation hc.1 (h.retained hc.1)
        · rw [State.countClean_counts hc (by omega)]
          exact hset _ hstate (by dsimp only; omega)
      · rw [State.countClean_breaks hc]
        exact hset _ hstate h.rearm
    · exact .of_arming h.kept hstate hclean
  | live =>
    by_cases hst : st = .stale
    · rw [State.guardActs_live_stale hstate hst]; exact State.CountLaws.tripOwn_own h.kept _
    · cases hresult : e.result with
      | some c => rw [State.guardActs_live_breach hstate hst hresult]; exact State.CountLaws.tripOwn_own h.kept _
      | none =>
        rw [State.guardActs_live_clear hstate hst hresult]
        exact .of_live h.kept hstate ((h.live hstate).resolve_left hst) (h.clean hstate) h.report h.evaluation hresult
          (h.retained hresult)
  | tripped =>
    rw [State.guardActs_tripped hstate, State.arm_setGuard]
    have htrip := h.tripped hstate
    refine .of_tripped h.kept ?_ ?_
    · unfold Guard.noted; split <;> exact hstate
    · unfold Guard.noted; split
      · simpa using htrip
      · exact htrip

end Sys2Proof.Machine
end

section
/-! SUPPORT. What a command section does to an arm, and the laws of the counts over every command. -/

namespace Sys2Proof.Machine

open Sys2Proof

/-! ### What a command section does to the blocks of an arm -/

/-- The blocks of an arm that has gone OFFLINE (R55, R124). -/
def ArmUnit.offline (u : ArmUnit) : ArmUnit :=
  { u with monitor := { u.monitor with timer := none }, guard := { u.guard with state := .offline, permit := false, clean := 0 } }

/-- The blocks of an arm whose trip is cleared (R125). -/
def ArmUnit.rearmed (u : ArmUnit) : ArmUnit :=
  { u with guard := { u.guard.mapTrip (fun r => { r with cleared := true }) with state := .arming, permit := false, clean := 0 } }

/-- The blocks of an arm that has joined (R54, R120). -/
def ArmUnit.joinedAt (u : ArmUnit) (period : Nat) (epoch : Byte) : ArmUnit :=
  { monitor := ⟨none, none, 0, some period⟩, evaluation := none,
    guard := { u.guard with state := .arming, permit := false, clean := 0, joined := some epoch } }

theorem State.arm_goOffline_same (s : State) (x : Arm) : (s.goOffline x).arm x = (s.arm x).offline := State.arm_setArm ..

theorem State.arm_goOffline_of_ne (s : State) {x y : Arm} (h : y ≠ x) : (s.goOffline x).arm y = s.arm y :=
  State.arm_setArm_of_ne _ _ h

/-- What a command section can leave of the blocks of an arm. -/
inductive State.ServesArm (c : Instr) (s : State) (x : Arm) : ArmUnit → Prop
  | left : ServesArm c s x (s.arm x)
  | joined (tag : BitVec 4) (rep : Option Report) (epoch : Byte) (hc : c = .join x tag rep epoch)
      (hx : s.guardState x = .offline) : ServesArm c s x ((s.arm x).joinedAt (s.params.arm x).reportPeriod s.epoch)
  | gone (hc : (∃ tag rep, c = .leave x tag rep) ∨ (∃ tag arm, c = .evict tag arm) ∨ ∃ tag, c = .stop tag) :
      ServesArm c s x (s.arm x).offline
  | rearmed (tag : BitVec 4) (rep : Option Report) (hc : c = .clearTrip x tag rep) (hx : s.guardState x = .tripped) :
      ServesArm c s x (s.arm x).rearmed
  | halted (tag : BitVec 4) (u : ArmUnit) (hc : c = .halt tag) (hx : s.trippable x = true) (hu : (s.arm x).TrippedTo u) :
      ServesArm c s x u

theorem arm_settleShift (s : State) (p : Party) (k source : SlotNo) (r : Rect) (x : Arm) :
    (s.settleShift p k source r).1.arm x = s.arm x := by
  unfold State.settleShift
  dsimp only
  split
  · simp
  · simp
  · split
    · simp
    · split <;> simp

theorem arm_blockRequest (c0 c1 r0 r1 : Byte) (s : State) (x : Arm) : (blockRequest c0 c1 r0 r1 s).1.arm x = s.arm x := by
  unfold blockRequest
  split
  · rfl
  · split
    · rfl
    · dsimp only
      split
      · rw [arm_grantScan, arm_withdrawAll]; cases x <;> rfl
      · rw [arm_withdrawAll]; cases x <;> rfl

theorem arm_unblockRequest (c0 c1 r0 r1 : Byte) (s : State) (x : Arm) : (unblockRequest c0 c1 r0 r1 s).1.arm x = s.arm x := by
  unfold unblockRequest
  split
  · rfl
  · split
    · rfl
    · dsimp only
      rw [arm_grantScan, arm_lowerClosing]
      cases x <;> rfl

theorem arm_writeRowRequest (row start : Byte) (entries : List Byte) (s : State) (x : Arm) :
    (writeRowRequest row start entries s).1.arm x = s.arm x := by
  unfold writeRowRequest
  split_ifs <;> cases x <;> rfl

theorem State.Serves.arm {c : Instr} {s t : State} (h : State.Serves c s t) (x : Arm) : s.ServesArm c x (t.arm x) := by
  have hleft {u : ArmUnit} (hu : u = s.arm x) : s.ServesArm c x u := hu ▸ .left
  cases h with
  | unchanged => exact .left
  | acknowledges => exact hleft (by simp)
  | joins y tag rep epoch _ hmode hy =>
    obtain rfl | hne := eq_or_ne x y
    · rw [State.joins, State.arm_setArm]; exact .joined tag rep epoch rfl hy
    · exact hleft (State.arm_setArm_of_ne _ _ hne)
  | leaves y tag rep =>
    obtain rfl | hne := eq_or_ne x y
    · rw [State.arm_goOffline_same]; exact .gone (.inl ⟨tag, rep, rfl⟩)
    · exact hleft (s.arm_goOffline_of_ne hne)
  | rearms y tag rep _ _ hy =>
    obtain rfl | hne := eq_or_ne x y
    · rw [State.arm_setGuard]; exact .rearmed tag rep rfl hy
    · exact hleft (State.arm_setGuard_of_ne _ _ hne)
  | evicts y tag arm =>
    rw [State.evicts, State.arm_raise]
    obtain rfl | hne := eq_or_ne x y
    · rw [State.arm_goOffline_same, arm_grantScan, arm_evictClaims]; exact .gone (.inr (.inl ⟨tag, arm, rfl⟩))
    · exact hleft (by rw [State.arm_goOffline_of_ne _ hne, arm_grantScan, arm_evictClaims])
  | grants => exact hleft (by simp)
  | shifts _ p k source r => exact hleft (arm_settleShift s p k source r x)
  | queues => exact hleft (by simp)
  | withdraws => exact hleft (by simp)
  | releases => exact hleft (by simp)
  | releasesTrip => exact hleft (by simp)
  | blocks _ c0 c1 r0 r1 => exact hleft (arm_blockRequest c0 c1 r0 r1 s x)
  | unblocks _ c0 c1 r0 r1 => exact hleft (arm_unblockRequest c0 c1 r0 r1 s x)
  | writes _ row start entries => exact hleft (arm_writeRowRequest row start entries s x)
  | sets | starts | clearsHalt => exact hleft (by cases x <;> rfl)
  | stops tag _ hmode =>
    rw [State.arm_stopRequest hmode, State.arm_goOffline_same]
    exact .gone (.inr (.inr ⟨tag, rfl⟩))
  | halts tag =>
    obtain ⟨htrips, hstays⟩ := arm_haltCell s .request x
    cases hx : s.trippable x with
    | true => exact .halted tag _ rfl hx (htrips hx)
    | false => exact hleft (hstays hx)

/-! ### Reports and expiries -/

namespace State.CountLaws

variable {s t : State}

theorem rearm_pos {ps : Params} (h : ps.Law) (x : Arm) : 0 < (ps.arm x).rearmCount := by
  obtain ⟨-, -, -, -, -, -, hrearm, -⟩ := h.arm x
  exact hrearm.1

theorem raise (h : s.CountLaws) (p : Party) (n : Notice) : (s.raise p n).CountLaws :=
  h.of_arms (fun y => by simp) (by simp)

/-- Both arms' counts, from those of one arm and of the other. -/
theorem of_both (x : Arm) (hx : (t.arm x).Counts (t.params.arm x)) (hother : (t.arm x.other).Counts (t.params.arm x.other)) :
    t.CountLaws := fun y => by
  obtain rfl | rfl := Arm.eq_or_eq_other x y
  · exact hx
  · exact hother

/-- The evaluation of an arm that is ready for it leaves lawful counts of both arms. -/
theorem evaluated {x : Arm} {e : Evaluation} {st : Start} (hready : s.ReadyFor x e st)
    (hother : (s.arm x.other).Counts (s.params.arm x.other)) : ((s.guardActs x e st).handOff x e).CountLaws := by
  have hparams : ((s.guardActs x e st).handOff x e).params = s.params :=
    ((((State.Moves.refl s).guardActs x e st).drain x).params_eq.symm ▸ by unfold State.handOff; split <;> simp)
  refine of_both x ?_ ?_ <;> rw [hparams, State.arm_handOff]
  · exact hready.guardActs
  · exact guardActs_other hother e st

theorem freshReport (h : s.CountLaws) (hparams : s.params.Law) {x : Arm} {rep : Report} {q : Probe} {more : List Probe}
    (hprobes : rep.probes = q :: more) (htool : q.guarded = some .tool)
    (helbow : 0 < (s.params.arm x).elbowRadius → more.head?.bind Probe.guarded = some .elbow) : (s.freshReport x rep).CountLaws := by
  by_cases hx : s.guardState x = .offline
  · have hstored : s.freshReport x rep =
        s.setMonitor x { (s.arm x).monitor with lastReport := some rep, lastCount := some rep.count } := if_pos hx
    rw [hstored]
    refine of_both x ?_ ?_
    · rw [State.arm_setMonitor]
      exact .of_offline (by simp [hprobes, htool]) hx
    · rw [State.arm_setMonitor_of_ne _ _ (Arm.other_ne x)]
      simpa using h x.other
  · have he := State.evaluate_cons (s := s) (x := x) hprobes 0
    rw [State.freshReport_of_evaluate hx he]
    set e := s.evaluateProbes x rep.count 0 q (if 0 < (s.params.arm x).elbowRadius then more.head? else none) with hedef
    set u := s.setArm x ⟨s.freshMonitor x rep, some e, (s.arm x).guard⟩ with hu
    have harm : u.arm x = ⟨s.freshMonitor x rep, some e, (s.arm x).guard⟩ := State.arm_setArm ..
    have hps : u.params = s.params := by simp [hu]
    have hguard : u.guardState x = s.guardState x := by rw [State.guardState, harm]; rfl
    obtain ⟨-, hlive, harming, -, -, htripped⟩ := h x
    refine evaluated ⟨by rw [harm], ⟨?_, ?_, ?_⟩, by rw [hguard]; exact hx, State.retained_of_evaluate he, fun _ => .inr ?_,
      fun hl => ?_, by rw [harm]; rfl, fun ha => ?_, fun _ => ?_, fun ht => ?_, by rw [hps]; exact rearm_pos hparams x⟩ ?_
    · rw [harm]; exact Nat.zero_le _
    · rw [harm]; simp [State.freshMonitor, hprobes, htool]
    · rw [harm, hps]; intro hr; simp only [State.freshMonitor, Option.all_some, hprobes, List.tail_cons, helbow hr, beq_self_eq_true]
    · rw [harm]; exact Nat.zero_le _
    · rw [harm, hps]; exact (hlive (hguard.symm.trans hl)).2.1
    · rw [harm, hps]; exact harming (hguard.symm.trans ha)
    · rw [harm]; exact Nat.zero_le _
    · rw [harm]; exact htripped (hguard.symm.trans ht)
    · rw [hu, State.arm_setArm_of_ne _ _ (Arm.other_ne x)]
      simpa using h x.other

theorem armReport (h : s.CountLaws) (hparams : s.params.Law) (x : Arm) (rep : Report) : (s.armReport x rep).CountLaws := by
  unfold State.armReport
  split
  · exact h
  · exact h.raise _ _
  · exact h
  · rename_i hfresh
    unfold reportOutcome at hfresh
    split at hfresh
    · cases hfresh
    · rename_i q more hprobes
      split_ifs at hfresh with htool helbow
      exact h.freshReport hparams hprobes (not_not.mp htool) fun hr => by
        by_contra hne
        exact helbow ⟨hr, hne⟩

theorem takeReport (h : s.CountLaws) (hparams : s.params.Law) (p : Party) (rep : Option Report) :
    (s.takeReport p rep).CountLaws := by
  unfold State.takeReport
  split
  · exact h.armReport hparams _ _
  · exact h

theorem afterReport (h : s.CountLaws) (hparams : s.params.Law) (p : Party) (rep : Option Report) :
    (s.afterReport p rep).CountLaws := by
  unfold State.afterReport
  split
  · exact h
  · exact h.takeReport hparams p rep

/-- A stored report has a first probe record, so that it can be evaluated (R44). -/
theorem exists_evaluation (h : s.CountLaws) {x : Arm} {rep : Report} (hrep : (s.arm x).monitor.lastReport = some rep) (m : Nat) :
    ∃ e, s.evaluate x rep m = some e := by
  have htool := (h x).tool
  rw [hrep] at htool
  cases hprobes : rep.probes with
  | nil => simp [hprobes] at htool
  | cons q more => exact ⟨_, State.evaluate_cons hprobes m⟩

theorem periodExpiry (h : s.CountLaws) (hparams : s.params.Law) {x : Arm} (hx : s.guardState x ≠ .offline) :
    (s.periodExpiry x).CountLaws := by
  obtain ⟨hmissed, hlive, harming, htool, helbow, htripped⟩ := h x
  set n := raisedMissed (s.arm x).monitor.missed (s.params.arm x).staleLimit with hn
  have hraised : n ≤ (s.params.arm x).staleLimit + 1 ∧ ((s.params.arm x).staleLimit < n →
      (s.arm x).monitor.missed = (s.params.arm x).staleLimit ∨ (s.params.arm x).staleLimit < (s.arm x).monitor.missed) := by
    have := hmissed hx
    rw [hn, raisedMissed]
    split_ifs <;> omega
  have hps (o : Option Evaluation) (g : Guard) : (s.afterExpiry x o g).params = s.params := by simp [State.afterExpiry]
  have hother (o : Option Evaluation) (g : Guard) : ((s.afterExpiry x o g).arm x.other).Counts ((s.afterExpiry x o g).params.arm x.other) := by
    rw [hps, State.afterExpiry, State.arm_setArm_of_ne _ _ (Arm.other_ne x)]
    exact h x.other
  have hkept (o : Option Evaluation) (g : Guard) :
      ((s.afterExpiry x o g).arm x).monitor.Kept ((s.afterExpiry x o g).params.arm x) := by
    rw [hps, State.arm_afterExpiry]
    exact ⟨hraised.1, htool, helbow hx⟩
  have hguard : (s.guardAtExpiry x).state = s.guardState x ∧ (s.guardAtExpiry x).trip = (s.arm x).guard.trip ∧
      (s.guardState x = .arming → (s.guardAtExpiry x).clean = 0) ∧
      (s.guardState x ≠ .arming → (s.guardAtExpiry x).clean = (s.arm x).guard.clean) := by
    unfold State.guardAtExpiry
    split_ifs with ha
    · exact ⟨rfl, rfl, fun _ => rfl, fun hne => absurd ha hne⟩
    · exact ⟨rfl, rfl, fun he => absurd he ha, fun _ => rfl⟩
  obtain ⟨hstate, htrip, hcleanArming, hcleanKept⟩ := hguard
  have hready {e : Evaluation} {rep : Report} (hrep : (s.arm x).monitor.lastReport = some rep)
      (he : s.evaluate x rep n = some e) (hok : n ≤ (s.params.arm x).staleLimit ∨ s.StaleNow x) :
      (s.afterExpiry x (some e) (s.guardAtExpiry x)).ReadyFor x e (s.expiryStart x) := by
    have hgs : (s.afterExpiry x (some e) (s.guardAtExpiry x)).guardState x = s.guardState x := State.guardState_afterExpiry
    refine ⟨by rw [State.arm_afterExpiry], hkept _ _, hgs ▸ hx, State.retained_of_evaluate he, fun hl => ?_, fun hl => ?_, ?_,
      fun ha => ?_, fun hf => absurd hf State.expiryStart_ne_fresh, fun ht => ?_, by rw [hps]; exact rearm_pos hparams x⟩
    · obtain hle | hstale := hok
      · right; rw [State.arm_afterExpiry, hps]; exact hle
      · exact .inl hstale.start
    · rw [State.arm_afterExpiry, hps]
      exact (hcleanKept (by rw [← hgs, hl]; simp)).trans (hlive (hgs.symm.trans hl)).2.1
    · rw [State.arm_afterExpiry]; dsimp only; rw [hrep]; rfl
    · rw [State.arm_afterExpiry, hps]
      exact (hcleanArming (hgs.symm.trans ha)).symm ▸ rearm_pos hparams x
    · rw [State.arm_afterExpiry]; exact htrip ▸ htripped (hgs.symm.trans ht)
  have hevaluates {rep : Report} (hrep : (s.arm x).monitor.lastReport = some rep)
      (hok : n ≤ (s.params.arm x).staleLimit ∨ s.StaleNow x) : (s.periodExpiry x).CountLaws := by
    obtain ⟨e, he⟩ := h.exists_evaluation hrep n
    rw [State.periodExpiry_evaluates hrep he hok]
    exact evaluated (hready hrep he hok) (hother _ _)
  have hquiet (hnotLive : s.guardState x ≠ .live) (hq : (s.arm x).monitor.lastReport = none ∨ (s.params.arm x).staleLimit < n) :
      (s.periodExpiry x).CountLaws := by
    rw [State.periodExpiry_quiet (fun hstale => hnotLive hstale.1) (hq.imp_right Or.inr)]
    refine of_both x ?_ (hother _ _)
    have hk := hkept (s.arm x).evaluation (s.guardAtExpiry x)
    rw [hps] at hk ⊢
    rw [State.arm_afterExpiry] at hk ⊢
    cases hg : s.guardState x with
    | offline => exact absurd hg hx
    | live => exact absurd hg hnotLive
    | arming => exact .of_arming hk (hstate.trans hg) ((hcleanArming hg).symm ▸ rearm_pos hparams x)
    | tripped => exact .of_tripped hk (hstate.trans hg) (htrip ▸ htripped hg)
  by_cases hl : s.guardState x = .live
  · obtain ⟨hle, -, hreport, -⟩ := hlive hl
    obtain ⟨rep, hrep⟩ := Option.isSome_iff_exists.mp hreport
    refine hevaluates hrep ?_
    by_cases hlt : (s.params.arm x).staleLimit < n
    · exact .inr ⟨hl, (hraised.2 hlt).resolve_right (by omega)⟩
    · exact .inl (by omega)
  · cases hrep : (s.arm x).monitor.lastReport with
    | none => exact hquiet hl (.inl hrep)
    | some rep =>
      by_cases hlt : (s.params.arm x).staleLimit < n
      · exact hquiet hl (.inr hlt)
      · exact hevaluates hrep (.inl (by omega))

/-! ### Commands -/

theorem serves {c : Instr} (hserves : State.Serves c s t) (h : s.CountLaws) (hmode : s.ModeLaw) (hparams : s.params.Law) :
    t.CountLaws := by
  intro x
  have hx := h x
  have harm := hserves.arm x
  obtain hps | ⟨tag, ident, value, range, rfl, hsetup, -, -⟩ := hserves.params
  · rw [hps]
    generalize t.arm x = u at harm ⊢
    cases harm with
    | left => exact hx
    | joined =>
      exact .of_arming ⟨Nat.zero_le _, rfl, fun _ => rfl⟩ rfl (rearm_pos hparams x)
    | gone => exact .of_offline hx.tool rfl
    | rearmed _ _ _ htripped =>
      have hjoined : (s.arm x).guard.state ≠ .offline := fun ho => by
        have : s.guardState x = .offline := ho
        rw [htripped] at this; cases this
      exact .of_arming (hx.kept hjoined) rfl (rearm_pos hparams x)
    | halted _ _ _ htrippable htrip => exact .of_trippedTo (h.kept_of_trippable htrippable) htrip
  · generalize t.arm x = u at harm ⊢
    have hoffline : (s.arm x).guard.state = .offline := (hmode.1 x).2.2.1 hsetup
    cases harm with
    | left => exact .of_offline hx.tool hoffline
    | joined _ _ _ hc => cases hc
    | gone => exact .of_offline hx.tool rfl
    | rearmed _ _ hc => cases hc
    | halted _ _ hc => cases hc

theorem haltCell (h : s.CountLaws) (src : HaltSource) : (s.haltCell src).CountLaws := fun x => by
  obtain ⟨htrips, hstays⟩ := arm_haltCell s src x
  rw [(s.haltCell_frame src).2.2.2.2.1]
  cases hx : s.trippable x with
  | true => exact .of_trippedTo (h.kept_of_trippable hx) (htrips hx)
  | false => rw [hstays hx]; exact h x

theorem assertLine (h : s.CountLaws) : s.assertLine.CountLaws := by
  have hlevel : State.CountLaws { s with haltLevel := true } := h.of_arms (fun y => by cases y <;> rfl) rfl
  unfold State.assertLine
  dsimp only
  split
  · exact (hlevel.raise .C _).haltCell .line
  · exact hlevel.raise .C _

theorem does {c : Instr} (hdoes : State.Does c s t) (h : s.CountLaws) (hmode : s.ModeLaw) (hparams : s.params.Law) :
    t.CountLaws := by
  cases hdoes with
  | serves _ q _ u a hq htaken hserves ht =>
    have hmoves := (State.Moves.refl s).afterReport q.port q.rep
    exact (serves hserves (h.afterReport hparams q.port q.rep) (hmode.moves hmoves) (hmoves.params_eq ▸ hparams)).of_arms
      (fun y => by simp) (by simp)
  | periodExpires x _ htimer => exact h.periodExpiry hparams ((hmode.1 x).2.2.2.2.1.mp htimer)
  | lineAsserted => exact CountLaws.assertLine (h.of_arms (fun y => by cases y <;> rfl) rfl)
  | resets =>
    obtain ⟨-, -, -, -, -, -, -, harm, -, -, hlawful, -, -⟩ := resetValues
    exact of_arms (s := State.reset) (fun x => hlawful.counts x) (fun y => by cases y <;> rfl) rfl
  | released _ u _ hu =>
    have hcounts : u.CountLaws := by
      rw [hu]
      split_ifs
      · exact CountLaws.assertLine (h.of_arms (fun y => by cases y <;> rfl) rfl)
      · exact h.of_arms (fun y => by cases y <;> rfl) rfl
    exact hcounts.of_arms (fun y => by simp) (by simp)
  | heldExchange p f _ _ g n =>
    have hshifts : (s.shifts p g).CountLaws := h.of_arms (fun y => by simp) (by simp)
    exact hshifts.of_arms (fun y => by cases y <;> rfl) rfl
  | heldLine | lineReleased => exact h.of_arms (fun y => by cases y <;> rfl) rfl
  | _ => exact h.of_arms (fun y => by simp) (by simp)

theorem takeSection (h : s.CountLaws) (hparams : s.params.Law) (x : Arm) (rep : Report) : (s.takeSection x rep).CountLaws :=
  (h.takeReport hparams x.party (some rep)).of_arms (fun y => by simp [State.takeSection]) (by simp [State.takeSection])

theorem elapse (h : s.CountLaws) (n : Nat) : (s.elapse n).CountLaws := fun x => by
  have hx := h x
  cases x <;> exact hx

end State.CountLaws

end Sys2Proof.Machine
end

section
/-! SUPPORT. The exchange side of a port, and the invariant of the device. -/

namespace Sys2Proof.Machine

open Sys2Proof

/-! ### The exchange side of a port (R163) -/

/-- The commands that reach the exchange side of a port: its own, and the reset ones. -/
def AtPort (c : Instr) (p : Party) : Prop :=
  (∃ q, c.request = some q ∧ q.port = p) ∨ c = .frameCheckRefusal p ∨ (∃ f, c = .exchangeEnd p f) ∨
    (∃ f, c = .overrun p f) ∨ c = .reset ∨ c = .resetRelease

theorem State.OnlyRaises.raiseYield {s t : State} (h : s.OnlyRaises t) (p : Party) (k : SlotNo) (r : Rect) :
    s.OnlyRaises (t.raiseYield p k r) := by
  refine List.foldlRecOn (motive := s.OnlyRaises) parties _ h fun u hu y _ => ?_
  split
  · exact hu.raise y _
  · exact hu

/-- A command leaves the exchange side of a port, or is one of its own or of the reset ones; then the stage begins anew, or
the request in processing stays with its stage. -/
theorem State.Does.exchange {c : Instr} {s t : State} (h : State.Does c s t) (p : Party) :
    s.ExchangeKept t p ∨ AtPort c p ∧
      ((t.port p).reported = false ∨
        (t.port p).processing = (s.port p).processing ∧ (t.port p).reported = (s.port p).reported) := by
  have hrefl : s.ExchangeKept s p := ⟨rfl, rfl, rfl, rfl⟩
  have honly {u : State} (hu : s.OnlyRaises u) : s.ExchangeKept u p := hu.exchange p
  have hshifts (q : Party) (g : Frame) : ((s.shifts q g).port p).processing = (s.port p).processing ∧
      ((s.shifts q g).port p).reported = (s.port p).reported ∧ (q ≠ p → (s.shifts q g).port p = s.port p) := by
    by_cases hq : p = q
    · subst hq; simp
    · have hport : (s.shifts q g).port p = s.port p := State.port_setPort_of_ne s _ hq
      exact ⟨by rw [hport], by rw [hport], fun _ => hport⟩
  have hkept {q : Party} {g : Frame} (hq : q ≠ p) : s.ExchangeKept (s.shifts q g) p := by
    rw [State.ExchangeKept, (hshifts q g).2.2 hq]; exact hrefl
  cases h with
  | nothing => exact .inl hrefl
  | serves _ q _ u a hq htaken hserves ht =>
    by_cases hp : q.port = p
    · exact .inr ⟨.inl ⟨q, hq, hp⟩, .inl (by rw [← hp, State.port_placeReply])⟩
    · have hreport := ((State.Moves.refl s).afterReport q.port q.rep).exchange p
      have hcommand := hserves.exchange p
      left
      rw [State.ExchangeKept, State.port_placeReply_of_ne _ _ _ _ (Ne.symm hp)]
      obtain ⟨h1, h2, h3, h4⟩ := hcommand
      obtain ⟨g1, g2, g3, g4⟩ := hreport
      exact ⟨h1.trans g1, h2.trans g2, h3.trans g3, h4.trans g4⟩
  | heldExchange q f _ _ g n =>
    have hport : ({ s.shifts q g with freeCount := s.freeCount + n } : State).port p = (s.shifts q g).port p := by
      cases p <;> rfl
    by_cases hq : q = p
    · subst hq
      exact .inr ⟨.inr (.inr (.inl ⟨f, rfl⟩)), .inr ⟨by rw [hport, (hshifts q g).1], by rw [hport, (hshifts q g).2.1]⟩⟩
    · left; rw [State.ExchangeKept, hport]; exact hkept hq
  | emptyExchange q f _ _ _ g =>
    by_cases hq : q = p
    · subst hq
      exact .inr ⟨.inr (.inr (.inl ⟨f, rfl⟩)), .inr ⟨(hshifts q g).1, (hshifts q g).2.1⟩⟩
    · exact .inl (hkept hq)
  | takes q f _ _ _ g =>
    by_cases hq : q = p
    · subst hq
      exact .inr ⟨.inr (.inr (.inl ⟨f, rfl⟩)), .inl (by rw [State.port_setPort])⟩
    · left
      rw [State.ExchangeKept, State.port_setPort_of_ne _ _ (Ne.symm hq)]
      exact hkept hq
  | overruns q f _ _ g =>
    by_cases hq : q = p
    · subst hq
      obtain ⟨hprocessing, hreported, -⟩ := State.raise_port_rest (s.shifts q g) q q .portFault
      exact .inr ⟨.inr (.inr (.inr (.inl ⟨f, rfl⟩))),
        .inr ⟨hprocessing.trans (hshifts q g).1, hreported.trans (hshifts q g).2.1⟩⟩
    · left
      rw [State.ExchangeKept, State.port_raise_of_ne _ _ (Ne.symm hq)]
      exact hkept hq
  | refuses q _ tag kind a =>
    by_cases hq : q = p
    · subst hq
      exact .inr ⟨.inr (.inl rfl), .inl (by rw [State.port_placeReply])⟩
    · left
      rw [State.ExchangeKept, State.port_placeReply_of_ne _ _ _ _ (Ne.symm hq)]
      exact hrefl
  | periodExpires x _ hx => exact .inl (((State.Moves.refl s).periodExpiry x hx).exchange p)
  | waitExpires q k _ w hw =>
    exact .inl (honly (((State.OnlyRaises.refl s).of_port_eq fun r => port_removePending s _ r).raise q _).grantScan)
  | yieldAsked q k _ r w l hslot =>
    exact .inl (honly (((State.OnlyRaises.refl s).of_port_eq fun y => s.port_setSlot q k _ y).raiseYield q k r))
  | heldLine | lineReleased => left; cases p <;> exact hrefl
  | lineAsserted =>
    exact .inl (honly ((State.OnlyRaises.refl s).of_port_eq (u := { s with haltPinLow := true }) fun q => by
      cases q <;> rfl).assertLine)
  | resets => exact .inr ⟨.inr (.inr (.inr (.inr (.inl rfl)))), .inl (by cases p <;> rfl)⟩
  | released _ u _ hu =>
    have hexchange : s.ExchangeKept u p := by
      rw [hu]
      split_ifs
      · exact honly ((State.OnlyRaises.refl s).of_port_eq (u := { s with held := false }) fun q => by
          cases q <;> rfl).assertLine
      · cases p <;> exact hrefl
    obtain ⟨hprocessing, hreported, -, -⟩ := hexchange
    refine .inr ⟨.inr (.inr (.inr (.inr (.inr rfl)))), .inr ?_⟩
    rw [← hprocessing, ← hreported]
    cases p <;> exact ⟨rfl, rfl⟩

/-! ### The stage of a port (R163) -/

/-- What keeps the request in processing keeps the report it carries. -/
theorem State.carriedReport_congr {s t : State} {p : Party} (h : (t.port p).processing = (s.port p).processing) :
    t.carriedReport p = s.carriedReport p := by
  unfold State.carriedReport State.inProcessing
  rw [h]

theorem State.StageLaw.of_stage {s t : State} {p : Party} (h : s.StageLaw p)
    (hstage : (t.port p).reported = false ∨
      (t.port p).processing = (s.port p).processing ∧ (t.port p).reported = (s.port p).reported) : t.StageLaw p := by
  obtain hnew | ⟨hprocessing, hreported⟩ := hstage
  · intro ht; rw [hnew] at ht; cases ht
  · intro ht
    rw [State.carriedReport_congr hprocessing]
    exact h (hreported ▸ ht)

theorem State.StageLaw.does {c : Instr} {s t : State} {p : Party} (hdoes : State.Does c s t) (h : s.StageLaw p) :
    t.StageLaw p := by
  obtain ⟨hprocessing, hreported, -, -⟩ | ⟨-, hstage⟩ := hdoes.exchange p
  · exact h.of_stage (.inr ⟨hprocessing, hreported⟩)
  · exact h.of_stage hstage

theorem State.StageLaw.takeSection {s : State} {x : Arm} {rep : Report} {p : Party} (h : s.StageLaw p)
    (hdue : s.reportDue x = some rep) : (s.takeSection x rep).StageLaw p := by
  have hexchange := ((State.Moves.refl s).takeReport x.party (some rep)).exchange p
  obtain ⟨hprocessing, hreported, -, -⟩ := hexchange
  unfold State.takeSection
  dsimp only
  by_cases hp : p = x.party
  · intro _
    have hcarried : s.carriedReport p = some rep := by
      unfold State.reportDue at hdue
      split_ifs at hdue
      exact hp ▸ hdue
    rw [State.carriedReport_congr (s := s) (by rw [← hprocessing, hp, State.port_setPort]), hcarried]
    rfl
  · refine h.of_stage (.inr ?_)
    rw [State.port_setPort_of_ne _ _ hp]
    exact ⟨hprocessing, hreported⟩

/-! ### The part held in reset (R156) -/

/-- The blocks of a part that is held are those of reset. -/
theorem State.HeldLaw.blocks {s : State} (h : s.HeldLaw) (hheld : s.held = true) :
    (∀ x, (s.arm x).monitor.timer = none) ∧ ∀ p k, s.slot p k = .empty := by
  rw [h hheld]
  exact ⟨fun x => by cases x <;> rfl, fun p k => by cases p <;> fin_cases k <;> rfl⟩

/-- A part that is held does nothing but shift out free bytes and follow the pin, until it is released or reset again. -/
theorem State.HeldLaw.does {c : Instr} {s t : State} (hdoes : State.Does c s t) (h : s.HeldLaw) (hmode : s.ModeLaw) :
    t.HeldLaw := by
  intro ht
  by_cases hheld : s.held = true
  · have hreset := h hheld
    obtain ⟨htimer, hslot⟩ := h.blocks hheld
    have hidle := hmode.held_processing hheld
    cases hdoes with
    | nothing => exact hreset
    | serves _ q _ u a _ htaken =>
      rw [hmode.not_held_of_taken htaken] at hheld; cases hheld
    | heldExchange p f _ _ g n => rw [hreset]; cases p <;> rfl
    | emptyExchange _ _ _ hnot | takes _ _ _ hnot | lineAsserted _ hnot | lineReleased _ hnot =>
      rw [hnot] at hheld; cases hheld
    | overruns p _ _ hport | refuses p _ _ _ _ hport => rw [hidle] at hport; cases hport
    | periodExpires x _ hx => rw [htimer] at hx; cases hx
    | waitExpires p k _ w hw =>
      have := (State.waiter_eq_some.mp hw).2
      rw [hslot] at this; cases this
    | yieldAsked p k _ r w l hpending => rw [hslot] at hpending; cases hpending
    | heldLine _ _ _ _ b => rw [hreset]; rfl
    | resets => rfl
    | released _ u _ hu =>
      have hfree : u.held = false := by
        rw [hu]
        split_ifs
        · exact (State.outer_assertLine _).1
        · rfl
      simp [hfree] at ht
  · cases hdoes with
    | resets => rfl
    | released _ _ hs | heldExchange _ _ _ hs | heldLine _ _ _ hs => exact absurd hs hheld
    | nothing => exact absurd ht hheld
    | serves _ q _ u a _ _ hserves =>
      have hreport := ((State.Moves.refl s).afterReport q.port q.rep).control.2.2.2.2.1
      exact absurd (by simpa [hserves.outer.1, hreport] using ht) hheld
    | periodExpires x _ hx =>
      exact absurd (((State.Moves.refl s).periodExpiry x hx).control.2.2.2.2.1.symm.trans ht) hheld
    | lineAsserted => exact absurd ((State.outer_assertLine _).1.symm.trans ht) hheld
    | _ => exact absurd (by simpa using ht) hheld

theorem State.HeldLaw.of_section {s : State} {x : Arm} {rep : Report} (hmode : s.ModeLaw)
    (hdue : s.reportDue x = some rep) : (s.takeSection x rep).HeldLaw := by
  intro ht
  have hheld : s.held = true := by simpa [State.takeSection] using ht
  have hidle := hmode.held_processing hheld x.party
  unfold State.reportDue State.carriedReport State.inProcessing at hdue
  rw [hidle] at hdue
  simp at hdue

theorem State.HeldLaw.elapse {s : State} (h : s.HeldLaw) (n : Nat) : (s.elapse n).HeldLaw := by
  intro ht
  rw [h (by simpa using ht)]
  rfl

/-! ### Everything together -/

namespace State.Lawful

variable {s t : State}

theorem gridLaw (h : s.Lawful) : s.GridLaw where
  params := h.params
  covers := h.covers
  slots := ((State.claimLaw_iff (State.queueLaw_iff.mp h.queue).1).mp h.claims).1
  trips := h.claims.2.2
  ground := ⟨h.tiles, h.closing, (State.pendingOpen_iff (State.queueLaw_iff.mp h.queue).1).mp h.pendingOpen⟩

theorem of_gridLaw (hmode : s.ModeLaw) (hheld : s.HeldLaw) (hstages : ∀ p, s.StageLaw p) (hattention : ∀ p, s.AttentionLaw p)
    (hcounts : s.CountLaws) (hqueue : s.QueueLaw) (hgrid : s.GridLaw) : s.Lawful where
  mode := hmode
  held := hheld
  stages := hstages
  params := hgrid.params
  attention := hattention
  counts := hcounts
  covers := hgrid.covers
  queue := hqueue
  claims := (State.claimLaw_iff (State.queueLaw_iff.mp hqueue).1).mpr ⟨hgrid.slots, hgrid.trips⟩
  tiles := hgrid.ground.tiles
  closing := hgrid.ground.closing
  pendingOpen := (State.pendingOpen_iff (State.queueLaw_iff.mp hqueue).1).mpr hgrid.ground.opened

theorem does {c : Instr} (hdoes : State.Does c s t) (h : s.Lawful) : t.Lawful :=
  of_gridLaw (State.ModeLaw.does hdoes h.mode) (h.held.does hdoes h.mode) (fun p => (h.stages p).does hdoes)
    (State.AttentionLaws.does hdoes h.attention) (State.CountLaws.does hdoes h.counts h.mode h.params)
    (State.QueueLaw.does hdoes h.queue) (h.gridLaw.does hdoes h.mode h.queue)

theorem takeSection {x : Arm} {rep : Report} (h : s.Lawful) (hdue : s.reportDue x = some rep) : (s.takeSection x rep).Lawful :=
  of_gridLaw (State.ModeLaw.takeSection h.mode x rep) (State.HeldLaw.of_section h.mode hdue)
    (fun p => (h.stages p).takeSection hdue) (State.AttentionLaws.takeSection h.attention x rep)
    (State.CountLaws.takeSection h.counts h.params x rep) (State.QueueLaw.takeSection h.queue x rep) (h.gridLaw.takeSection x rep)

theorem elapse (h : s.Lawful) (n : Nat) : (s.elapse n).Lawful :=
  of_gridLaw (State.ModeLaw.elapse h.mode n) (h.held.elapse n)
    (fun p => (h.stages p).of_stage (.inr (by simp))) (State.AttentionLaws.of_ports h.attention fun p => by cases p <;> rfl)
    (State.CountLaws.elapse h.counts n) (State.QueueLaw.elapse h.queue n) (h.gridLaw.elapse n)

theorem pending (h : s.Lawful) (rest : List Instr) : State.Lawful { s with pending := rest } :=
  ⟨h.mode, fun hheld => by rw [h.held hheld]; rfl, h.stages, h.params, h.attention, h.counts, h.covers, h.queue, h.claims, h.tiles,
    h.closing, h.pendingOpen⟩

end State.Lawful

/-- Settles O59: every command, every idle report section and the passing of time keep every law. -/
theorem stepKeepsTheLaws : Obligations.StepKeepsTheLaws := by
  unfold Obligations.StepKeepsTheLaws
  intro s t hs h
  exact step_keeps (P := State.Lawful) (fun c s t hdoes hs => hs.does hdoes) (fun s rest hs => hs.pending rest)
    (fun s x rep hdue hs => hs.takeSection hdue) (fun s n hs => hs.elapse n) hs h

end Sys2Proof.Machine
end

section
/-! SUPPORT. The grant scan leaves no grantable claim waiting (R90), and what else keeps it so. -/

namespace Sys2Proof.Machine

open Sys2Proof

/-! ### The place of a waiting claim: its rectangle and its arrival number (R81) -/

def Claim.place : Claim → Option (Rect × Nat)
  | .pending r w _ => some (r, w.arrival)
  | .empty => none
  | .held .. => none
  | .draining .. => none

@[simp] theorem Claim.place_unlink (k : SlotNo) (c : Claim) : (c.unlink k).place = c.place := by
  match c with
  | .empty => rfl
  | .pending r w none => rfl
  | .pending r w (some j) => rfl
  | .held r none => rfl
  | .held r (some j) => rfl
  | .draining r j => by_cases h : j = k <;> simp [Claim.unlink, Claim.place, h]

theorem Claim.place_of_heldRect {c : Claim} (h : c.heldRect.isSome = true) : c.place = none := by
  cases c <;> simp_all [Claim.heldRect, Claim.place]

/-- The place of the claim that a name names. -/
def State.placeOf (s : State) (n : ClaimName) : Option (Rect × Nat) := (s.slot n.party n.slot).place

theorem State.placeOf_eq_waiter (s : State) (n : ClaimName) :
    s.placeOf n = (s.waiter n).map fun w => (w.rect, w.wait.arrival) := by
  unfold State.placeOf State.waiter
  cases s.slot n.party n.slot <;> rfl

theorem State.arrivalOf_eq_place (s : State) (n : ClaimName) : s.arrivalOf n = (s.placeOf n).map Prod.snd := by
  unfold State.arrivalOf State.placeOf
  cases s.slot n.party n.slot <;> rfl

theorem State.placeOf_congr {s t : State} (h : ∀ p k, t.slot p k = s.slot p k) (n : ClaimName) : t.placeOf n = s.placeOf n := by
  rw [State.placeOf, State.placeOf, h]

theorem State.placeOf_releaseSlot (s : State) (p : Party) (k : SlotNo) (n : ClaimName) :
    (s.releaseSlot p k).1.placeOf n = s.placeOf n := by
  by_cases hheld : (s.slot p k).heldRect.isSome = true
  · simp only [State.placeOf, State.slot_releaseSlot s p n.party k n.slot hheld]
    split_ifs with hp hk
    · rw [hp, hk, Claim.place_of_heldRect hheld]; rfl
    · rw [hp, Claim.place_unlink]
    · rfl
  · rw [State.releaseSlot_none (by simpa using hheld)]

theorem State.placeOf_startDrain (s : State) (p : Party) (i j : SlotNo) (n : ClaimName) :
    (s.startDrain p i j).placeOf n = s.placeOf n := by
  unfold State.startDrain
  split
  · rename_i r l hslot
    simp only [State.placeOf, State.slot_setSlot_eq]
    split_ifs with hn
    · rw [hn.1, hn.2, hslot]; rfl
    · rfl
  · rfl

theorem State.placeOf_grant (s : State) (n : ClaimName) (r : Rect) (l : Option SlotNo) (m : ClaimName) :
    (s.grant n r l).1.placeOf m = if m = n then none else s.placeOf m := by
  have hheld : (s.holdTarget n r l).placeOf m = if m = n then none else s.placeOf m := by
    obtain ⟨p, k⟩ := m
    obtain ⟨q, j⟩ := n
    simp only [State.placeOf, State.slot_holdTarget, ClaimName.mk.injEq]
    split_ifs <;> rfl
  cases l with
  | none => rw [State.grant_none]; exact hheld
  | some i =>
    by_cases hp : n.party = .C
    · rw [State.grant_cell _ _ _ hp, State.placeOf_releaseSlot]; exact hheld
    · rw [State.grant_arm _ _ _ hp, State.placeOf_startDrain]; exact hheld

theorem State.placeOf_removePending (s : State) (n m : ClaimName) :
    (s.removePending n).placeOf m = if m = n then none else s.placeOf m := by
  obtain ⟨p, k⟩ := m
  obtain ⟨q, j⟩ := n
  simp only [State.placeOf, State.slot_removePending, ClaimName.mk.injEq]
  split_ifs <;> rfl

theorem State.placeOf_cancelPending {s : State} (p : Party) (c : CancelCause) {m : ClaimName} (h : m ∈ (s.cancelPending p c).queue) :
    m ∈ s.queue ∧ (s.cancelPending p c).placeOf m = s.placeOf m := by
  unfold State.cancelPending at h ⊢
  split at h
  · rename_i w hw
    simp only [State.raise_frame, State.queue_removePending, List.mem_filter, decide_eq_true_eq] at h
    refine ⟨h.1, ?_⟩
    rw [State.placeOf_congr fun q k => State.slot_raise .., State.placeOf_removePending, if_neg h.2]
  · exact ⟨h, rfl⟩

theorem State.queue_raise (s : State) (p : Party) (n : Notice) : (s.raise p n).queue = s.queue := by simp

/-! ### Barred claims (R66, R87) -/

/-- A claim of party `p` over `r` with arrival number `a` meets a tile that it cannot be granted, or an earlier claim. -/
def State.Barred (s : State) (p : Party) (r : Rect) (a : Nat) : Prop :=
  (∃ z, r.contains z = true ∧ (s.tile z).grantableTo p = false) ∨
    ∃ m ∈ s.queue, ∃ q b, s.placeOf m = some (q, b) ∧ b < a ∧ q.overlaps r = true

theorem State.grantable_eq_false_iff {s : State} {p : Party} {r : Rect} {a : Nat} :
    s.grantable p r a = false ↔ s.Barred p r a := by
  have hearlier : (s.waiters.any fun w => w.earlierOver a r) = true ↔
      ∃ m ∈ s.queue, ∃ q b, s.placeOf m = some (q, b) ∧ b < a ∧ q.overlaps r = true := by
    simp only [State.waiters, List.any_eq_true, List.mem_filterMap, Waiter.earlierOver, Bool.and_eq_true, decide_eq_true_eq,
      State.placeOf_eq_waiter, Option.map_eq_some_iff, Prod.mk.injEq]
    constructor
    · rintro ⟨w, ⟨m, hm, hw⟩, hlt, hover⟩
      exact ⟨m, hm, w.rect, w.wait.arrival, ⟨w, hw, rfl, rfl⟩, hlt, hover⟩
    · rintro ⟨m, hm, -, -, ⟨w, hw, rfl, rfl⟩, hlt, hover⟩
      exact ⟨w, ⟨m, hm, hw⟩, hlt, hover⟩
  unfold State.Barred
  rw [← hearlier, State.grantable, Bool.and_eq_false_iff, Bool.not_eq_false', ← Bool.not_eq_true, List.all_eq_true]
  refine or_congr ⟨fun h => ?_, fun ⟨z, hz, hg⟩ h => ?_⟩ Iff.rfl
  · by_contra hnone
    refine h fun z _ => ?_
    cases hz : r.contains z with
    | false => rfl
    | true =>
      cases hg : (s.tile z).grantableTo p with
      | false => exact absurd ⟨z, hz, hg⟩ hnone
      | true => rfl
  · have := h z (mem_allTiles z)
    simp [hz, hg] at this

theorem State.noneGrantable_iff {s : State} :
    s.NoneGrantable ↔ ∀ n ∈ s.queue, ∀ r a, s.placeOf n = some (r, a) → s.Barred n.party r a := by
  constructor
  · intro h n hn r a hplace
    rw [State.placeOf_eq_waiter, Option.map_eq_some_iff] at hplace
    obtain ⟨w, hw, hra⟩ := hplace
    obtain ⟨rfl, rfl⟩ := Prod.mk.inj hra
    obtain ⟨hname, hslot⟩ := State.waiter_eq_some.mp hw
    exact hname ▸ State.grantable_eq_false_iff.mp (h w (State.mem_waiters.mpr ⟨hname.symm ▸ hn, hname.symm ▸ hslot⟩))
  · intro h w hw
    obtain ⟨hmem, hslot⟩ := State.mem_waiters.mp hw
    exact State.grantable_eq_false_iff.mpr (h w.name hmem _ _ (by rw [State.placeOf, hslot]; rfl))

/-- Where no tile can be granted that could not, and the earlier claims stay, a claim stays barred. -/
theorem State.Barred.mono {s t : State} {p : Party} {r : Rect} {a : Nat} (h : s.Barred p r a)
    (htile : ∀ z, (s.tile z).grantableTo p = false → (t.tile z).grantableTo p = false)
    (hqueue : ∀ m ∈ s.queue, ∀ q b, s.placeOf m = some (q, b) → b < a → m ∈ t.queue ∧ t.placeOf m = s.placeOf m) :
    t.Barred p r a := by
  obtain ⟨z, hz, hg⟩ | ⟨m, hm, q, b, hplace, hlt, hover⟩ := h
  · exact .inl ⟨z, hz, htile z hg⟩
  · obtain ⟨hmem, hsame⟩ := hqueue m hm q b hplace hlt
    exact .inr ⟨m, hmem, q, b, hsame.trans hplace, hlt, hover⟩

/-- The arrival numbers rise along the queue. -/
theorem State.QueueOrder.arrival_lt {s : State} (h : s.QueueOrder) {l₁ l₂ : List ClaimName} (hl : s.queue = l₁ ++ l₂)
    {m n : ClaimName} (hm : m ∈ l₁) (hn : n ∈ l₂) {q r : Rect} {a b : Nat} (hpm : s.placeOf m = some (q, a))
    (hpn : s.placeOf n = some (r, b)) : a < b := by
  have hsorted := h.sorted
  rw [hl, List.filterMap_append, List.pairwise_append] at hsorted
  refine hsorted.2.2 a (List.mem_filterMap.mpr ⟨m, hm, ?_⟩) b (List.mem_filterMap.mpr ⟨n, hn, ?_⟩)
  · rw [State.arrivalOf_eq_place, hpm]; rfl
  · rw [State.arrivalOf_eq_place, hpn]; rfl

/-! ### A grant that releases nothing (R67, R107) -/

/-- The tiles after a grant: those of the claim gain a hold, and those of a shift source of party C end one. -/
theorem State.tile_grant_quiet {s : State} {n : ClaimName} {r : Rect} {l : Option SlotNo} (h : (s.grant n r l).2 = none)
    (z : Tile) : (s.grant n r l).1.tile z = if r.contains z = true then (s.tile z).addHold n.party else s.tile z := by
  cases l with
  | none => rw [State.grant_none, State.tile_holdTarget, State.tile_addHolds]
  | some i =>
    by_cases hp : n.party = .C
    · obtain ⟨p, k⟩ := n
      obtain rfl : p = .C := hp
      simp [State.grant] at h
    · rw [State.grant_arm _ _ _ hp, tile_startDrain, State.tile_holdTarget, State.tile_addHolds]

/-- No grant makes a tile grantable. -/
theorem State.grantableTo_addHold {s : State} {p q : Party} {r : Rect} {a : Nat} (hg : s.grantable p r a = true) {z : Tile}
    (hz : r.contains z = true) (h : (s.tile z).grantableTo q = false) : ((s.tile z).addHold p).grantableTo q = false := by
  obtain ⟨hservice, howner⟩ := State.tile_of_grantable hg hz
  unfold TileRecord.grantableTo at h ⊢
  unfold TileRecord.addHold
  obtain howner | howner := howner
  · simp [hservice, howner] at h
  · simpa [hservice, howner] using h

/-! ### A pass of the scan (R88) -/

theorem scanEntry_flag {acc : State × Bool} {n : ClaimName} (h : (scanEntry acc n).2 = false) : acc.2 = false := by
  unfold scanEntry at h
  split at h
  · exact h
  · split at h
    · exact (Bool.or_eq_false_iff.mp h).1
    · exact h

theorem foldl_scanEntry_flag (l : List ClaimName) {acc : State × Bool} (h : (l.foldl scanEntry acc).2 = false) :
    acc.2 = false := by
  induction l generalizing acc with
  | nil => exact h
  | cons n l ih => exact scanEntry_flag (ih h)

/-- An entry of a walk that brings about no release: it is left, barred, or granted without a release. -/
theorem scanEntry_quiet (acc : State × Bool) (n : ClaimName) (h : (scanEntry acc n).2 = false) :
    (scanEntry acc n).1 = acc.1 ∧ (∀ w, acc.1.waiter n = some w → acc.1.grantable n.party w.rect w.wait.arrival = false) ∨
      ∃ w, acc.1.waiter n = some w ∧ acc.1.grantable n.party w.rect w.wait.arrival = true ∧
        (acc.1.grant n w.rect w.link).2 = none ∧
        (scanEntry acc n).1 = (acc.1.grant n w.rect w.link).1.raise n.party (.granted n.slot) := by
  unfold scanEntry at h ⊢
  split at h
  · rename_i hnone
    exact .inl ⟨rfl, fun w hw => by rw [hnone] at hw; cases hw⟩
  · rename_i w hw
    split at h
    · rename_i hg
      rw [if_pos hg]
      exact .inr ⟨w, hw, hg, by simpa using (Bool.or_eq_false_iff.mp h).2, rfl⟩
    · rename_i hg
      rw [if_neg hg]
      exact .inl ⟨rfl, fun v hv => by obtain rfl := Option.some.inj (hw.symm.trans hv); simpa using hg⟩

/-- What holds in a pass that brings about no release, after the entries `done`: those of them that wait are barred. -/
structure State.PassedOver (s u : State) (done : List ClaimName) : Prop where
  fewer : ∀ m ∈ u.queue, m ∈ s.queue ∧ u.placeOf m = s.placeOf m
  barred : ∀ m ∈ u.queue, m ∈ done → ∀ r a, u.placeOf m = some (r, a) → u.Barred m.party r a

theorem State.PassedOver.entry {s : State} (horder : s.QueueOrder) {acc : State × Bool} {n : ClaimName}
    {done rest : List ClaimName} (hqueue : s.queue = done ++ n :: rest) (h : s.PassedOver acc.1 done)
    (hquiet : (scanEntry acc n).2 = false) : s.PassedOver (scanEntry acc n).1 (done ++ [n]) := by
  obtain ⟨hleft, hbarred⟩ | ⟨w, hw, hg, hnone, hgranted⟩ := scanEntry_quiet acc n hquiet
  · rw [hleft]
    refine ⟨h.fewer, fun m hm hdone r a hplace => ?_⟩
    obtain hdone | hn := List.mem_append.mp hdone
    · exact h.barred m hm hdone r a hplace
    · obtain rfl := List.mem_singleton.mp hn
      rw [State.placeOf_eq_waiter, Option.map_eq_some_iff] at hplace
      obtain ⟨w, hw, hra⟩ := hplace
      obtain ⟨rfl, rfl⟩ := Prod.mk.inj hra
      exact State.grantable_eq_false_iff.mp (hbarred w hw)
  · have hplaceOf (m : ClaimName) : (scanEntry acc n).1.placeOf m = if m = n then none else acc.1.placeOf m := by
      rw [hgranted, State.placeOf_congr fun q k => State.slot_raise .., State.placeOf_grant]
    have hqueueOf : (scanEntry acc n).1.queue = acc.1.queue.filter (· ≠ n) := by
      rw [hgranted, State.queue_raise, State.QueueOrder.queue_grant]
    have htile (z : Tile) : (scanEntry acc n).1.tile z =
        if w.rect.contains z = true then (acc.1.tile z).addHold n.party else acc.1.tile z := by
      rw [hgranted, State.tile_raise, State.tile_grant_quiet hnone]
    have hmem {m : ClaimName} (hm : m ∈ (scanEntry acc n).1.queue) : m ∈ acc.1.queue ∧ m ≠ n := by
      rw [hqueueOf] at hm
      simpa using hm
    refine ⟨fun m hm => ?_, fun m hm hdone r a hplace => ?_⟩
    · obtain ⟨hm, hne⟩ := hmem hm
      rw [hplaceOf, if_neg hne]
      exact h.fewer m hm
    · obtain ⟨hm, hne⟩ := hmem hm
      have hdone : m ∈ done := by simpa [hne] using hdone
      rw [hplaceOf, if_neg hne] at hplace
      refine (h.barred m hm hdone r a hplace).mono (fun z hz => ?_) fun v hv q b hv' hlt => ?_
      · rw [htile]
        split_ifs with hr
        · exact State.grantableTo_addHold hg hr hz
        · exact hz
      · have hvn : v ≠ n := fun he => by
          have hvs := (h.fewer v hv).2.symm.trans hv'
          have hms := (h.fewer m hm).2.symm.trans hplace
          have := horder.arrival_lt hqueue hdone (List.mem_cons_self ..) hms (he ▸ hvs)
          omega
        refine ⟨?_, by rw [hplaceOf, if_neg hvn]⟩
        rw [hqueueOf]
        simp [hv, hvn]

theorem State.PassedOver.entries {s : State} (horder : s.QueueOrder) (rest : List ClaimName) {acc : State × Bool}
    {done : List ClaimName} (hqueue : s.queue = done ++ rest) (h : s.PassedOver acc.1 done)
    (hquiet : (rest.foldl scanEntry acc).2 = false) : s.PassedOver (rest.foldl scanEntry acc).1 s.queue := by
  induction rest generalizing acc done with
  | nil => rw [hqueue, List.append_nil]; exact h
  | cons n rest ih =>
    refine ih (by rw [hqueue]; simp) (h.entry horder hqueue ?_) hquiet
    exact foldl_scanEntry_flag rest hquiet

/-- A pass that brings about no release leaves no grantable claim. -/
theorem State.noneGrantable_scanPass {s : State} (horder : s.QueueOrder) (hquiet : s.scanPass.2 = false) :
    s.scanPass.1.NoneGrantable := by
  have hpassed := State.PassedOver.entries (s := s) (acc := (s, false)) (done := []) horder s.queue rfl
    ⟨fun m hm => ⟨hm, rfl⟩, fun m _ hm => absurd hm List.not_mem_nil⟩ hquiet
  exact State.noneGrantable_iff.mpr fun n hn r a hplace => hpassed.barred n hn (hpassed.fewer n hn).1 r a hplace

/-! ### The whole scan (R90) -/

/-- A pass that brings about a release has granted an entry. -/
theorem State.length_scanPass_lt {s : State} (horder : s.QueueOrder) (h : s.scanPass.2 = true) :
    s.scanPass.1.queue.length < s.queue.length := by
  have hwalk (l : List ClaimName) (acc : State × Bool) (hacc : acc.1.QueueOrder) (hflag : acc.2 = false)
      (hend : (l.foldl scanEntry acc).2 = true) : (l.foldl scanEntry acc).1.queue.length < acc.1.queue.length := by
    induction l generalizing acc with
    | nil => rw [List.foldl_nil, hflag] at hend; cases hend
    | cons n l ih =>
      rw [List.foldl_cons] at hend ⊢
      have hrest : (l.foldl scanEntry (scanEntry acc n)).1.queue.length ≤ (scanEntry acc n).1.queue.length :=
        (List.foldlRecOn (motive := fun a : State × Bool => State.Moves (scanEntry acc n).1 a.1) l scanEntry
          (State.Moves.refl _) fun _ ha m _ => ha.scanEntry m).queue_sublist.length_le
      cases hstep : (scanEntry acc n).2 with
      | false =>
        have := ((State.Moves.refl acc.1).scanEntry (acc := acc) n).queue_sublist.length_le
        exact lt_of_lt_of_le (ih _ (hacc.moves ((State.Moves.refl acc.1).scanEntry n)) hstep hend) this
      | true =>
        refine lt_of_le_of_lt hrest ?_
        obtain hleft | ⟨w, hw, hg, hgranted⟩ := scanEntry_cases acc n
        · rw [hleft, hflag] at hstep; cases hstep
        · have hentry : n ∈ acc.1.queue := by
            rw [hacc.pending, State.arrivalOf_eq_waiter, hw]; rfl
          rw [hgranted, State.queue_raise, State.QueueOrder.queue_grant]
          exact List.length_filter_lt_length_iff_exists.mpr ⟨n, hentry, by simp⟩
  exact hwalk s.queue (s, false) horder rfl h

/-- The grant scan leaves no grantable claim (R90). -/
theorem State.noneGrantable_grantScan {s : State} (horder : s.QueueOrder) : s.grantScan.NoneGrantable := by
  have hpasses (n : Nat) (u : State) (hu : u.QueueOrder) (hlen : u.queue.length < n) : (scanPasses n u).NoneGrantable := by
    induction n generalizing u with
    | zero => omega
    | succ n ih =>
      unfold scanPasses
      split
      · rename_i hflag
        have := State.length_scanPass_lt hu hflag
        exact ih _ (hu.moves (State.Moves.refl u).scanPass) (by omega)
      · exact State.noneGrantable_scanPass hu (by simpa using ‹¬u.scanPass.2 = true›)
  exact hpasses _ s horder (Nat.lt_succ_self _)

end Sys2Proof.Machine
end

section
/-! SUPPORT. No grantable claim waits between events (R90). -/

namespace Sys2Proof.Machine

open Sys2Proof

namespace State.NoneGrantable

variable {s t : State}

theorem of_empty (h : s.queue = []) : s.NoneGrantable := fun w hw => by simp [State.waiters, h] at hw

/-- What keeps the queue and the places in it, and makes no tile grantable. -/
theorem of_places (h : s.NoneGrantable) (hqueue : t.queue = s.queue) (hplace : ∀ n ∈ s.queue, t.placeOf n = s.placeOf n)
    (htile : ∀ z p, (s.tile z).grantableTo p = false → (t.tile z).grantableTo p = false) : t.NoneGrantable :=
  State.noneGrantable_iff.mpr fun n hn r a hra => by
    rw [hqueue] at hn
    rw [hplace n hn] at hra
    exact (State.noneGrantable_iff.mp h n hn r a hra).mono (fun z => htile z n.party) fun m hm _ _ _ _ => ⟨hqueue ▸ hm, hplace m hm⟩

/-- What keeps the queue, the slots and the tiles. -/
theorem of_same (h : s.NoneGrantable) (hqueue : t.queue = s.queue) (hslot : ∀ p k, t.slot p k = s.slot p k)
    (htile : ∀ z, t.tile z = s.tile z) : t.NoneGrantable :=
  h.of_places hqueue (fun n _ => State.placeOf_congr hslot n) fun z p hz => by rw [htile]; exact hz

theorem raise (h : s.NoneGrantable) (p : Party) (n : Notice) : (s.raise p n).NoneGrantable :=
  h.of_same (by simp) (fun _ _ => by simp) (by simp)

theorem setGuard (h : s.NoneGrantable) (x : Arm) (g : Guard) : (s.setGuard x g).NoneGrantable :=
  h.of_same (by simp) (fun _ _ => by simp) (by simp)

/-! ### Reports and expiries -/

/-- Steps 1 to 6 of a trip, and its one grant scan (R133). -/
theorem tripOwn (horder : s.QueueOrder) {x : Arm} (c : Cause) (hx : s.trippable x = true) : (s.tripOwn x c).NoneGrantable :=
  State.noneGrantable_grantScan (horder.moves
    (((((State.Moves.refl s).step (.trip s x c true none hx)).contactTrip x).raiseIntrusion x _).scopeTrip x c |>.announceTrip x c))

theorem drain (h : s.NoneGrantable) (horder : s.QueueOrder) (x : Arm) : (s.drain x).NoneGrantable := by
  obtain hkept | ⟨k, r, target, q, hdrain, -, -, hdrained⟩ := s.drain_cases x
  · rw [hkept]; exact h
  · rw [hdrained]
    exact State.noneGrantable_grantScan ((horder.releaseSlot x.party k).of_slots (by simp) fun _ _ => by simp)

theorem guardActs (h : s.NoneGrantable) (horder : s.QueueOrder) (x : Arm) (e : Evaluation) (st : Start) :
    (s.guardActs x e st).NoneGrantable := by
  cases hstate : s.guardState x with
  | offline => rw [State.guardActs_offline hstate]; exact h
  | arming =>
    rw [State.guardActs_arming hstate]
    split_ifs
    · exact h.of_same (by simp) (fun _ _ => by simp) (by simp)
    · exact h
  | live =>
    have htrip : s.trippable x = true := by simp [State.trippable, hstate]
    by_cases hst : st = .stale
    · rw [State.guardActs_live_stale hstate hst]; exact tripOwn horder _ htrip
    · cases hresult : e.result with
      | some c => rw [State.guardActs_live_breach hstate hst hresult]; exact tripOwn horder _ htrip
      | none => rw [State.guardActs_live_clear hstate hst hresult]; exact h
  | tripped => rw [State.guardActs_tripped hstate]; exact h.setGuard x _

theorem evaluateReport (h : s.NoneGrantable) (horder : s.QueueOrder) {x : Arm} {rep : Report} {m : Nat} {st : Start}
    (hst : st = .stale → s.guardState x = .live) : (s.evaluateReport x rep m st).NoneGrantable := by
  cases he : s.evaluate x rep m with
  | none =>
    rw [State.evaluateReport_of_none he]
    split_ifs with hs
    · exact tripOwn horder _ (by simp [State.trippable, hst hs])
    · exact h
  | some e =>
    rw [State.evaluateReport_of_evaluate he]
    have hset : (s.setEvaluation x (some e)).NoneGrantable := h.of_same (by simp) (fun _ _ => by simp) (by simp)
    have hqueue : (s.setEvaluation x (some e)).QueueOrder := horder.of_slots (by simp) fun _ _ => by simp
    unfold State.handOff
    split_ifs
    · exact hset.guardActs hqueue x e st
    · exact (hset.guardActs hqueue x e st).drain (hqueue.moves ((State.Moves.refl _).guardActs x e st)) x

theorem freshReport (h : s.NoneGrantable) (horder : s.QueueOrder) (x : Arm) (rep : Report) :
    (s.freshReport x rep).NoneGrantable := by
  have hset (m : Monitor) : (s.setMonitor x m).NoneGrantable := h.of_same (by simp) (fun _ _ => by simp) (by simp)
  by_cases hx : s.guardState x = .offline
  · have hstored : s.freshReport x rep =
        s.setMonitor x { (s.arm x).monitor with lastReport := some rep, lastCount := some rep.count } := if_pos hx
    rw [hstored]
    exact hset _
  · rw [State.freshReport_of_joined hx]
    exact (hset _).evaluateReport (horder.of_slots (by simp) fun _ _ => by simp) fun hs => by cases hs

theorem takeReport (h : s.NoneGrantable) (horder : s.QueueOrder) (p : Party) (rep : Option Report) :
    (s.takeReport p rep).NoneGrantable := by
  unfold State.takeReport
  split
  · rename_i x r _
    obtain hkept | ⟨why, hrefused⟩ | hfresh := s.armReport_cases x r
    · rw [hkept]; exact h
    · rw [hrefused]; exact h.raise _ _
    · rw [hfresh]; exact h.freshReport horder x r
  · exact h

theorem afterReport (h : s.NoneGrantable) (horder : s.QueueOrder) (p : Party) (rep : Option Report) :
    (s.afterReport p rep).NoneGrantable := by
  unfold State.afterReport
  split
  · exact h
  · exact h.takeReport horder p rep

theorem periodExpiry (h : s.NoneGrantable) (horder : s.QueueOrder) (x : Arm) : (s.periodExpiry x).NoneGrantable := by
  have hset (o : Option Evaluation) (g : Guard) : (s.afterExpiry x o g).NoneGrantable :=
    h.of_same (by simp [State.afterExpiry]) (fun _ _ => by simp [State.afterExpiry]) (by simp [State.afterExpiry])
  have hqueue (o : Option Evaluation) (g : Guard) : (s.afterExpiry x o g).QueueOrder :=
    horder.of_slots (by simp [State.afterExpiry]) fun _ _ => by simp [State.afterExpiry]
  rw [State.periodExpiry_eq]
  split_ifs
  · unfold State.evaluateLast
    split
    · exact hset _ _
    · exact (hset _ _).evaluateReport (hqueue _ _) fun hs => by cases hs
  · unfold State.staleExpiry
    split
    · rename_i hlive
      split
      · exact tripOwn (hqueue _ _) _ (by simp [State.trippable, hlive])
      · exact (hset _ _).evaluateReport (hqueue _ _) fun _ => hlive
    · exact hset _ _
  · exact hset _ _

/-! ### New claims -/

/-- A grant at once that releases nothing leaves the waiting claims barred. -/
theorem grantQuiet (h : s.NoneGrantable) {n : ClaimName} {r : Rect} {a : Nat} {l : Option SlotNo} (hn : n ∉ s.queue)
    (hg : s.grantable n.party r a = true) (hnone : (s.grant n r l).2 = none) : (s.grant n r l).1.NoneGrantable := by
  refine h.of_places ?_ (fun m hm => ?_) fun z p hz => ?_
  · rw [State.QueueOrder.queue_grant]
    exact List.filter_eq_self.mpr fun m hm => by simpa using fun he : m = n => hn (he ▸ hm)
  · rw [State.placeOf_grant, if_neg fun he : m = n => hn (he ▸ hm)]
  · rw [State.tile_grant_quiet hnone]
    split_ifs with hr
    · exact State.grantableTo_addHold hg hr hz
    · exact hz

end State.NoneGrantable

/-- What follows the grant of a shift target: nothing, or a grant scan (R108, R109). -/
theorem State.settleShift_cases (s : State) (p : Party) (k source : SlotNo) (r : Rect) :
    (s.settleShift p k source r).1 = (s.grant ⟨p, k⟩ r (some source)).1 ∧ (s.grant ⟨p, k⟩ r (some source)).2 = none ∨
      (s.settleShift p k source r).1 = (s.grant ⟨p, k⟩ r (some source)).1.grantScan ∨
      (s.settleShift p k source r).1 = ((s.grant ⟨p, k⟩ r (some source)).1.releaseSlot p source).1.grantScan := by
  unfold State.settleShift
  dsimp only
  split
  · exact .inr (.inl rfl)
  · rename_i hnone
    exact .inl ⟨rfl, hnone⟩
  · rename_i hp
    have hnone : (s.grant ⟨p, k⟩ r (some source)).2 = none := by
      cases p with
      | A => rfl
      | B => rfl
      | C => cases hp
    split
    · exact .inl ⟨rfl, hnone⟩
    · split
      · exact .inr (.inr rfl)
      · exact .inl ⟨rfl, hnone⟩

/-- The name of a new claim is not in the queue. -/
theorem State.Placeable.not_mem_queue {s : State} {p : Party} {k : SlotNo} {r : Rect} {l : Option SlotNo}
    (h : s.Placeable p k r l) (horder : s.QueueOrder) : (⟨p, k⟩ : ClaimName) ∉ s.queue := fun hn => by
  rw [horder.pending, State.arrivalOf, h.slot_empty] at hn
  cases hn

/-- The places after a claim has entered the queue: those before, and that of the new one. -/
theorem State.placeOf_enqueue (s : State) (p : Party) (k : SlotNo) (r : Rect) (l : Option SlotNo) (m : ClaimName) :
    (s.enqueue p k r l).placeOf m = if m = ⟨p, k⟩ then some (r, s.nextArrival) else s.placeOf m := by
  obtain ⟨q, j⟩ := m
  simp only [State.placeOf, State.slot_enqueue, ClaimName.mk.injEq]
  split_ifs <;> rfl

namespace State.NoneGrantable

variable {s t : State}

theorem enqueue (h : s.NoneGrantable) (horder : s.QueueOrder) {p : Party} {k : SlotNo} {r : Rect} {l : Option SlotNo}
    (hclaim : s.Placeable p k r l) (hgrant : s.grantable p r s.nextArrival = false) : (s.enqueue p k r l).NoneGrantable := by
  have hnew := hclaim.not_mem_queue horder
  have hkeeps {q : Party} {z : Rect} {a : Nat} (hb : s.Barred q z a) : (s.enqueue p k r l).Barred q z a :=
    hb.mono (fun z hz => by rwa [tile_enqueue]) fun m hm _ _ _ _ =>
      ⟨by simp [hm], by rw [State.placeOf_enqueue, if_neg fun he : m = ⟨p, k⟩ => hnew (he ▸ hm)]⟩
  refine State.noneGrantable_iff.mpr fun n hn z a hplace => ?_
  rw [State.placeOf_enqueue] at hplace
  split_ifs at hplace with hname
  · obtain ⟨rfl, rfl⟩ := Prod.mk.inj (Option.some.inj hplace)
    rw [hname]
    exact hkeeps (State.grantable_eq_false_iff.mp hgrant)
  · have hn : n ∈ s.queue := by simpa [hname] using hn
    exact hkeeps (State.noneGrantable_iff.mp h n hn z a hplace)

/-! ### BLOCK (R13, R14) -/

theorem blockRequest (h : s.NoneGrantable) (horder : s.QueueOrder) (c0 c1 r0 r1 : Byte) :
    (blockRequest c0 c1 r0 r1 s).1.NoneGrantable := by
  unfold Machine.blockRequest
  split
  · exact h
  · split
    · exact h
    · rename_i r b hrect
      dsimp only
      generalize (fun t => r.contains t && (s.tile t).service == .opened) = f
      rw [withdrawAll_ground]
      have hmoves : s.Moves (s.queue.foldl (withdrawOver f) s) := (State.Moves.refl s).withdrawAll f s.queue
      set u := s.queue.foldl (withdrawOver f) s with hu
      have huorder := horder.moves hmoves
      split
      · exact State.noneGrantable_grantScan (huorder.of_slots rfl fun _ _ => rfl)
      · rename_i hlen
        have hqueue : u.queue = s.queue := hmoves.queue_sublist.eq_of_length_le (by simpa using hlen)
        refine h.of_places hqueue (fun n hn => ?_) fun z p hz => ?_
        · have hslot := State.slot_withdrawAll f s.queue s n.party n.slot
          rw [← hu] at hslot
          have hpending : (u.arrivalOf n).isSome = true := (huorder.pending n).mp (hqueue ▸ hn)
          split_ifs at hslot
          · rw [State.arrivalOf, hslot] at hpending; cases hpending
          · exact congrArg Claim.place hslot
        · refine (congrArg (fun q : TileRecord => q.grantableTo p) (TileMap.get_update ..)).trans ?_
          split_ifs
          · have howner := ((s.tile z).block_parts).1
            change (s.tile z).block.grantableTo p = false
            unfold TileRecord.grantableTo at hz ⊢
            rw [howner, TileRecord.block_service]
            by_cases hs : (s.tile z).service = .opened
            · rw [if_pos hs]; split_ifs <;> rfl
            · rw [if_neg hs]; exact hz
          · exact hz

/-! ### Every command -/

theorem serves {c : Instr} (hserves : State.Serves c s t) (h : s.NoneGrantable) (hqueue : s.QueueLaw) : t.NoneGrantable := by
  have horder := hqueue.order
  have hempty (hmode : s.mode ≠ .guarding) : s.queue = [] := (State.queueLaw_iff.mp hqueue).2 hmode
  have hscan {u : State} (hmoves : s.Moves u) : u.grantScan.NoneGrantable := State.noneGrantable_grantScan (horder.moves hmoves)
  cases hserves with
  | unchanged => exact h
  | acknowledges => exact h.of_same (by simp) (fun _ _ => by simp) (by simp)
  | joins => exact h.of_same (by simp [State.joins]) (fun _ _ => by simp [State.joins]) (by simp [State.joins])
  | leaves => exact h.of_same (by simp) (fun _ _ => by simp) (by simp)
  | rearms => exact h.setGuard _ _
  | evicts x =>
    exact (hscan ((State.Moves.refl s).evictClaims x)).of_same (by simp [State.evicts]) (fun _ _ => by simp [State.evicts])
      (by simp [State.evicts])
  | grants _ p k r _ hclaim hgrant => exact h.grantQuiet (hclaim.not_mem_queue horder) hgrant rfl
  | shifts _ p k source r _ hclaim hgrant =>
    have hgranted := horder.grant ⟨p, k⟩ r (some source)
    obtain ⟨hleft, hnone⟩ | hscanned | hreleased := s.settleShift_cases p k source r
    · rw [hleft]; exact h.grantQuiet (hclaim.not_mem_queue horder) hgrant hnone
    · rw [hscanned]; exact State.noneGrantable_grantScan hgranted
    · rw [hreleased]; exact State.noneGrantable_grantScan (hgranted.releaseSlot p source)
  | queues _ p k r link _ hclaim hgrant => exact h.enqueue horder hclaim hgrant
  | withdraws _ p k w _ hw => exact hscan ((State.Moves.refl s).step (.remove s _ w hw))
  | releases _ p k _ hheld => exact hscan ((State.Moves.refl s).step (.release s p k hheld))
  | releasesTrip _ x => exact hscan ((State.Moves.refl s).step (.releaseTrip s x))
  | blocks _ c0 c1 r0 r1 => exact h.blockRequest horder c0 c1 r0 r1
  | unblocks _ c0 c1 r0 r1 =>
    unfold unblockRequest
    split
    · exact h
    · split
      · exact h
      · exact State.noneGrantable_grantScan (horder.of_slots (by simp) fun p k => by rw [slot_lowerClosing]; rfl)
  | writes _ row start entries _ hsetup =>
    refine of_empty (Eq.trans ?_ (hempty (by simp [hsetup])))
    unfold writeRowRequest
    split_ifs <;> rfl
  | sets _ _ _ _ hsetup | starts _ _ hsetup => exact of_empty (hempty (by simp [hsetup]))
  | clearsHalt _ _ hhalted => exact of_empty (hempty (by simp [hhalted]))
  | stops _ _ hsetup =>
    have hlaw := hqueue.stopRequest
    refine of_empty ((State.queueLaw_iff.mp hlaw).2 ?_)
    rw [stopRequest, if_neg hsetup]
    simp
  | halts => exact of_empty ((State.queueLaw_iff.mp (hqueue.haltCell .request)).2 (by simp))

theorem assertLine (h : s.NoneGrantable) (hqueue : s.QueueLaw) : s.assertLine.NoneGrantable := by
  have hline : (({ s with haltLevel := true } : State).raise .C (.haltLine s.mode)).QueueLaw :=
    hqueue.of_slots (by simp) (by simp) fun p k => (State.slot_raise _ _ _ p k).trans rfl
  unfold State.assertLine
  dsimp only
  split
  · exact of_empty ((State.queueLaw_iff.mp (hline.haltCell .line)).2 (by simp))
  · have hlevel : State.NoneGrantable { s with haltLevel := true } := h.of_same rfl (fun _ _ => rfl) fun _ => rfl
    exact hlevel.raise _ _

theorem does {c : Instr} (hdoes : State.Does c s t) (h : s.NoneGrantable) (hqueue : s.QueueLaw) : t.NoneGrantable := by
  have horder := hqueue.order
  cases hdoes with
  | nothing => exact h
  | serves _ q _ u a _ _ hserves =>
    have hmoves := (State.Moves.refl s).afterReport q.port q.rep
    exact (serves hserves (h.afterReport horder q.port q.rep) (hqueue.moves hmoves)).of_same (by simp) (fun _ _ => by simp) (by simp)
  | periodExpires x => exact h.periodExpiry horder x
  | waitExpires p k _ w hw =>
    exact State.noneGrantable_grantScan ((horder.removePending ⟨p, k⟩).of_slots (by simp) fun _ _ => by simp)
  | yieldAsked p k _ r w l hslot =>
    refine h.of_places (by simp) (fun n _ => ?_) fun z q hz => by simpa using hz
    rw [State.placeOf_congr fun q j => slot_raiseYield .., State.placeOf, State.slot_setSlot_eq]
    split_ifs with hn
    · rw [State.placeOf, hn.1, hn.2, hslot]; rfl
    · rfl
  | lineAsserted =>
    exact assertLine (s := { s with haltPinLow := true }) (h.of_same rfl (fun _ _ => rfl) fun _ => rfl)
      (hqueue.of_slots rfl rfl fun _ _ => rfl)
  | resets => exact of_empty rfl
  | released _ u _ hu =>
    have hu' : u.NoneGrantable := by
      rw [hu]
      split_ifs
      · exact assertLine (s := { s with held := false }) (h.of_same rfl (fun _ _ => rfl) fun _ => rfl)
          (hqueue.of_slots rfl rfl fun _ _ => rfl)
      · exact h.of_same rfl (fun _ _ => rfl) fun _ => rfl
    exact hu'.of_same (by simp) (fun _ _ => by simp) (by simp)
  | heldExchange p f _ _ g n =>
    have hshifts : (s.shifts p g).NoneGrantable := h.of_same (by simp) (fun _ _ => by simp) (by simp)
    exact hshifts.of_same rfl (fun _ _ => rfl) fun _ => rfl
  | heldLine | lineReleased => exact h.of_same rfl (fun _ _ => rfl) fun _ => rfl
  | _ => exact h.of_same (by simp) (fun _ _ => by simp) (by simp)

theorem takeSection (h : s.NoneGrantable) (hqueue : s.QueueLaw) (x : Arm) (rep : Report) : (s.takeSection x rep).NoneGrantable :=
  (h.takeReport hqueue.order x.party (some rep)).of_same (by simp [State.takeSection]) (fun _ _ => by simp [State.takeSection])
    (by simp [State.takeSection])

theorem elapse (h : s.NoneGrantable) (n : Nat) : (s.elapse n).NoneGrantable := by
  refine h.of_places rfl (fun m _ => ?_) fun z p hz => by rwa [tile_elapse]
  rw [State.placeOf, State.slot_elapse]
  unfold State.placeOf
  cases s.slot m.party m.slot <;> rfl

end State.NoneGrantable

end Sys2Proof.Machine
end

section
/-! SUPPORT. The waits among the parties have no cycle (R86). -/

namespace Sys2Proof.Machine

open Sys2Proof

/-- Party `x` waits on party `y` (R83). -/
def State.WaitsFor (s : State) (x y : Party) : Prop := (s.partyWaitsOn x).has y = true

theorem State.ownsIn_iff {s : State} {y : Party} {r : Rect} :
    s.ownsIn y r = true ↔ ∃ z, r.contains z = true ∧ (s.tile z).owner = some y := by
  simp [State.ownsIn, List.any_eq_true]

/-- The waits of a claim of party `x` over `r` with arrival number `a` (R83). -/
theorem State.waitsOn_iff {s : State} {x y : Party} {r : Rect} {a : Nat} :
    (s.waitsOn x r a).has y = true ↔ y ≠ x ∧ ((∃ z, r.contains z = true ∧ (s.tile z).owner = some y) ∨
      ∃ m ∈ s.queue, m.party = y ∧ ∃ q b, s.placeOf m = some (q, b) ∧ b < a ∧ q.overlaps r = true) := by
  have hearlier : (s.waiters.any fun w => w.name.party == y && w.earlierOver a r) = true ↔
      ∃ m ∈ s.queue, m.party = y ∧ ∃ q b, s.placeOf m = some (q, b) ∧ b < a ∧ q.overlaps r = true := by
    simp only [State.waiters, List.any_eq_true, List.mem_filterMap, Waiter.earlierOver, Bool.and_eq_true, decide_eq_true_eq,
      beq_iff_eq, State.placeOf_eq_waiter, Option.map_eq_some_iff, Prod.mk.injEq]
    constructor
    · rintro ⟨w, ⟨m, hm, hw⟩, hparty, hlt, hover⟩
      have hname := (State.waiter_eq_some.mp hw).1
      exact ⟨m, hm, hname ▸ hparty, w.rect, w.wait.arrival, ⟨w, hw, rfl, rfl⟩, hlt, hover⟩
    · rintro ⟨m, hm, hparty, -, -, ⟨w, hw, rfl, rfl⟩, hlt, hover⟩
      have hname := (State.waiter_eq_some.mp hw).1
      exact ⟨w, ⟨m, hm, hw⟩, hname.symm ▸ hparty, hlt, hover⟩
  unfold State.waitsOn
  rw [PartySet.has_of, Bool.and_eq_true, Bool.or_eq_true, decide_eq_true_eq, hearlier, State.ownsIn_iff]

/-- The waits of a party are those of its waiting claim. -/
theorem State.QueueOrder.waits_iff {s : State} (h : s.QueueOrder) {x y : Party} :
    s.WaitsFor x y ↔ ∃ n ∈ s.queue, n.party = x ∧ ∃ r a, s.placeOf n = some (r, a) ∧ (s.waitsOn x r a).has y = true := by
  unfold State.WaitsFor State.partyWaitsOn
  constructor
  · intro hwaits
    split at hwaits
    · rename_i w hw
      obtain ⟨hmem, hparty⟩ := State.pendingOf_some hw
      obtain ⟨hqueue, hslot⟩ := State.mem_waiters.mp hmem
      exact ⟨w.name, hqueue, hparty, w.rect, w.wait.arrival, by rw [State.placeOf, hslot]; rfl, hwaits⟩
    · cases y <;> cases hwaits
  · rintro ⟨n, hn, hparty, r, a, hplace, hwaits⟩
    split
    · rename_i w hw
      obtain ⟨hmem, hwparty⟩ := State.pendingOf_some hw
      obtain ⟨hqueue, hslot⟩ := State.mem_waiters.mp hmem
      obtain rfl := h.eq_of_party hqueue hn (hwparty.trans hparty.symm)
      rw [State.placeOf, hslot] at hplace
      obtain ⟨rfl, rfl⟩ := Prod.mk.inj (Option.some.inj hplace)
      exact hwaits
    · rename_i hnone
      exact absurd hparty (h.party_ne_of_pendingOf_none hnone hn)

theorem State.not_waits_self (s : State) (x : Party) : ¬s.WaitsFor x x := by
  unfold State.WaitsFor State.partyWaitsOn
  split
  · rename_i w hw
    intro hwaits
    exact (State.waitsOn_iff.mp hwaits).1 rfl
  · cases x <;> simp [PartySet.has]

theorem State.noCycle_iff {s : State} : s.NoCycle ↔ (∀ x y, s.WaitsFor x y → ¬s.WaitsFor y x) ∧
    ∀ x y z, s.WaitsFor x y → s.WaitsFor y z → ¬s.WaitsFor z x :=
  ⟨fun h => ⟨fun x y hxy hyx => (h x y x).1 ⟨hxy, hyx⟩, fun x y z hxy hyz hzx => (h x y z).2 ⟨hxy, hyz, hzx⟩⟩,
    fun h x y z => ⟨fun ⟨hxy, hyx⟩ => h.1 x y hxy hyx, fun ⟨hxy, hyz, hzx⟩ => h.2 x y z hxy hyz hzx⟩⟩

namespace State.NoCycle

variable {s t : State}

/-- A wait that was not there before leads to a party that waits on no one: then no cycle has come. -/
theorem of_sinks (h : s.NoCycle) (hwaits : ∀ x y, t.WaitsFor x y → s.WaitsFor x y ∨ ∀ z, ¬t.WaitsFor y z) : t.NoCycle := by
  obtain ⟨htwo, hthree⟩ := State.noCycle_iff.mp h
  have hold {x y z : Party} (hxy : t.WaitsFor x y) (hyz : t.WaitsFor y z) : s.WaitsFor x y :=
    (hwaits x y hxy).resolve_right fun hsink => hsink z hyz
  exact State.noCycle_iff.mpr ⟨fun x y hxy hyx => htwo x y (hold hxy hyx) (hold hyx hxy),
    fun x y z hxy hyz hzx => hthree x y z (hold hxy hyz) (hold hyz hzx) (hold hzx hxy)⟩

/-- No claim comes to wait, and a party that comes to own a tile waits on no one. -/
theorem of_fewer (h : s.NoCycle) (hs : s.QueueOrder) (ht : t.QueueOrder)
    (hqueue : ∀ n ∈ t.queue, n ∈ s.queue ∧ t.placeOf n = s.placeOf n)
    (howner : ∀ z y, (t.tile z).owner = some y → (s.tile z).owner = some y ∨ ∀ n ∈ t.queue, n.party ≠ y) : t.NoCycle := by
  refine h.of_sinks fun x y hxy => ?_
  by_cases hsink : ∀ n ∈ t.queue, n.party ≠ y
  · right
    intro z hyz
    obtain ⟨n, hn, hparty, -⟩ := ht.waits_iff.mp hyz
    exact hsink n hn hparty
  · left
    obtain ⟨n, hn, hparty, r, a, hplace, hwaits⟩ := ht.waits_iff.mp hxy
    obtain ⟨hne, hwaits⟩ := State.waitsOn_iff.mp hwaits
    obtain ⟨hns, hsame⟩ := hqueue n hn
    refine hs.waits_iff.mpr ⟨n, hns, hparty, r, a, hsame ▸ hplace, State.waitsOn_iff.mpr ⟨hne, ?_⟩⟩
    obtain ⟨z, hz, hzo⟩ | ⟨m, hm, hmparty, q, b, hmplace, hlt, hover⟩ := hwaits
    · exact .inl ⟨z, hz, (howner z y hzo).resolve_right hsink⟩
    · obtain ⟨hms, hmsame⟩ := hqueue m hm
      exact .inr ⟨m, hms, hmparty, q, b, hmsame ▸ hmplace, hlt, hover⟩

theorem of_same (h : s.NoCycle) (hs : s.QueueOrder) (hqueue : t.queue = s.queue) (hplace : ∀ n, t.placeOf n = s.placeOf n)
    (howner : ∀ z, (t.tile z).owner = (s.tile z).owner) : t.NoCycle := by
  refine h.of_fewer hs (hs.of_arrivals hqueue fun n => ?_) (fun n hn => ⟨hqueue ▸ hn, hplace n⟩) fun z y hz => .inl (howner z ▸ hz)
  rw [State.arrivalOf_eq_place, State.arrivalOf_eq_place, hplace]

theorem of_slots (h : s.NoCycle) (hs : s.QueueOrder) (hqueue : t.queue = s.queue) (hslot : ∀ p k, t.slot p k = s.slot p k)
    (howner : ∀ z, (t.tile z).owner = (s.tile z).owner) : t.NoCycle :=
  h.of_same hs hqueue (fun n => State.placeOf_congr hslot n) howner

theorem of_empty (h : s.queue = []) : s.NoCycle := by
  have hnone (x : Party) : s.pendingOf x = none := by simp [State.pendingOf, State.waiters, h]
  have hno (x y : Party) : ¬s.WaitsFor x y := by
    unfold State.WaitsFor State.partyWaitsOn
    rw [hnone]
    cases y <;> simp [PartySet.has]
  exact State.noCycle_iff.mpr ⟨fun x y hxy => absurd hxy (hno x y), fun x y z hxy => absurd hxy (hno x y)⟩

end State.NoCycle

/-! ### Owners after the shared operations -/

theorem TileRecord.owner_dropHold {q : TileRecord} {y : Party} (h : q.dropHold.owner = some y) : q.owner = some y := by
  rw [q.dropHold_spec.2.2.1] at h
  split_ifs at h
  exact h

theorem State.owner_releaseSlot {s : State} {p : Party} {k : SlotNo} {z : Tile} {y : Party}
    (h : ((s.releaseSlot p k).1.tile z).owner = some y) : (s.tile z).owner = some y := by
  rw [State.tile_releaseSlot] at h
  split_ifs at h
  · exact TileRecord.owner_dropHold h
  · exact h

/-- A tile that has an owner after a grant had that owner before, or is the grantee's. -/
theorem State.owner_grant {s : State} {n : ClaimName} {r : Rect} {l : Option SlotNo} {z : Tile} {y : Party}
    (h : ((s.grant n r l).1.tile z).owner = some y) : (s.tile z).owner = some y ∨ y = n.party := by
  have htarget {i : Option SlotNo} (hz : ((s.holdTarget n r i).tile z).owner = some y) :
      (s.tile z).owner = some y ∨ y = n.party := by
    rw [State.tile_holdTarget, State.tile_addHolds] at hz
    split_ifs at hz
    · exact .inr (Option.some.inj hz).symm
    · exact .inl hz
  cases l with
  | none => rw [State.grant_none] at h; exact htarget h
  | some i =>
    by_cases hp : n.party = .C
    · rw [State.grant_cell _ _ _ hp] at h; exact htarget (State.owner_releaseSlot h)
    · rw [State.grant_arm _ _ _ hp, tile_startDrain] at h; exact htarget h

namespace State.NoCycle

variable {s t : State}

/-- After a grant the grantee waits on no one. -/
theorem grant (h : s.NoCycle) (hs : s.QueueOrder) {n : ClaimName} {w : Waiter} (hw : s.waiter n = some w) :
    (s.grant n w.rect w.link).1.NoCycle := by
  have hentry : n ∈ s.queue := by rw [hs.pending, State.arrivalOf_eq_waiter, hw]; rfl
  have hleft {m : ClaimName} (hm : m ∈ (s.grant n w.rect w.link).1.queue) : m ∈ s.queue ∧ m ≠ n := by
    rw [State.QueueOrder.queue_grant] at hm
    simpa using hm
  refine h.of_fewer hs (hs.grant n w.rect w.link) (fun m hm => ?_) fun z y hz => ?_
  · obtain ⟨hmem, hne⟩ := hleft hm
    exact ⟨hmem, by rw [State.placeOf_grant, if_neg hne]⟩
  · refine (State.owner_grant hz).imp_right fun hy m hm hparty => ?_
    obtain ⟨hmem, hne⟩ := hleft hm
    exact hne (hs.eq_of_party hmem hentry (hparty.trans hy))

/-- A tripped arm has no waiting claim. -/
theorem tripBegin (h : s.NoCycle) (hs : s.QueueOrder) (x : Arm) (c : Cause) (own : Bool) (o : Option Tile) :
    (s.tripBegin x c own o).NoCycle := by
  have hguard : (s.tripGuard x c own o).QueueOrder := hs.of_slots (by simp) fun _ _ => by simp
  have hqueue : (s.tripBegin x c own o).queue = ((s.tripGuard x c own o).cancelPending x.party .trip).queue := by
    simp [State.tripBegin]
  refine h.of_fewer hs (hs.tripBegin x c own o) (fun m hm => ?_) fun z y hz => ?_
  · rw [hqueue] at hm
    obtain ⟨hmem, hplace⟩ := State.placeOf_cancelPending _ _ hm
    refine ⟨by simpa using hmem, ?_⟩
    calc (s.tripBegin x c own o).placeOf m
        = ((s.tripGuard x c own o).cancelPending x.party .trip).placeOf m :=
          State.placeOf_congr (fun p k => by simp [State.tripBegin, State.buildTripClaim]) m
      _ = (s.tripGuard x c own o).placeOf m := hplace
      _ = s.placeOf m := State.placeOf_congr (fun p k => by simp) m
  · rw [State.tripBegin, State.tile_buildTripClaim] at hz
    split_ifs at hz
    · right
      intro m hm hparty
      rw [hqueue, hguard.queue_cancelPending] at hm
      have hy : x.party = y := Option.some.inj hz
      simp [hparty, hy] at hm
    · left; simpa using hz

theorem removePending (h : s.NoCycle) (hs : s.QueueOrder) (n : ClaimName) : (s.removePending n).NoCycle := by
  refine h.of_fewer hs (hs.removePending n) (fun m hm => ?_) fun z y hz => .inl (by simpa using hz)
  have hm : m ∈ s.queue ∧ m ≠ n := by rw [State.queue_removePending] at hm; simpa using hm
  exact ⟨hm.1, by rw [State.placeOf_removePending, if_neg hm.2]⟩

theorem releaseSlot (h : s.NoCycle) (hs : s.QueueOrder) (p : Party) (k : SlotNo) : (s.releaseSlot p k).1.NoCycle :=
  h.of_fewer hs (hs.releaseSlot p k) (fun m hm => ⟨by simpa using hm, State.placeOf_releaseSlot ..⟩)
    fun _ _ hz => .inl (State.owner_releaseSlot hz)

theorem releaseTrip (h : s.NoCycle) (hs : s.QueueOrder) (x : Arm) : (s.releaseTrip x).1.NoCycle := by
  have hslot (p : Party) (k : SlotNo) : (s.releaseTrip x).1.slot p k = s.slot p k := by simp [State.releaseTrip]
  refine h.of_fewer hs (hs.of_slots (by simp) hslot) (fun m hm => ⟨by simpa using hm, State.placeOf_congr hslot m⟩)
    fun z y hz => .inl ?_
  rw [State.tile_releaseTrip] at hz
  split_ifs at hz
  · exact TileRecord.owner_dropHold hz
  · exact hz

/-- Every move keeps the waits without a cycle. -/
theorem move (hmove : s.Move t) (hs : s.QueueOrder) (h : s.NoCycle) : t.NoCycle := by
  cases hmove with
  | raise p n => exact h.of_slots hs (by simp) (fun _ _ => by simp) fun _ => by simp
  | monitor x m => exact h.of_slots hs (by simp) (fun _ _ => by simp) fun _ => by simp
  | evaluation x rep m e => exact h.of_slots hs (by simp) (fun _ _ => by simp) fun _ => by simp
  | guard x g => exact h.of_slots hs (by simp) (fun _ _ => by simp) fun _ => by simp
  | remove n => exact h.removePending hs n
  | release p k => exact h.releaseSlot hs p k
  | releaseTrip x => exact h.releaseTrip hs x
  | grant n w hw => exact h.grant hs hw
  | trip x c own o => exact h.tripBegin hs x c own o

theorem moves (h : s.NoCycle) (hs : s.QueueOrder) (hmoves : s.Moves t) : t.NoCycle :=
  (hmoves.keeps (P := fun u => u.QueueOrder ∧ u.NoCycle)
    (fun _ _ hmove hu => ⟨hu.1.move hmove, move hmove hu.1 hu.2⟩) ⟨hs, h⟩).2

/-! ### A claim that enters the queue (R85) -/

/-- The cycle test: what the new claim would wait on does not wait on its party. -/
theorem of_closesCycle {p : Party} {r : Rect} (h : s.closesCycle p r = false) {y : Party}
    (hy : (s.waitsOn p r s.nextArrival).has y = true) :
    ¬s.WaitsFor y p ∧ ∀ z, z ≠ p → z ≠ y → s.WaitsFor y z → ¬s.WaitsFor z p := by
  unfold State.closesCycle at h
  rw [List.any_eq_false] at h
  have hnone := h y (mem_parties y)
  simp only [hy, Bool.true_and, Bool.or_eq_true, not_or, Bool.not_eq_true, List.any_eq_false, Bool.and_eq_true,
    decide_eq_true_eq, not_and] at hnone
  exact ⟨ne_true_of_eq_false hnone.1,
    fun z hzp hzy hyz => ne_true_of_eq_false (hnone.2 z (mem_parties z) ⟨⟨hzp, hzy⟩, hyz⟩)⟩

theorem enqueue (h : s.NoCycle) (hs : s.QueueOrder) {p : Party} {k : SlotNo} {r : Rect} {l : Option SlotNo}
    (hclaim : s.Placeable p k r l) (hcycle : s.closesCycle p r = false) : (s.enqueue p k r l).NoCycle := by
  have hnew := hclaim.not_mem_queue hs
  have hnoparty {n : ClaimName} (hn : n ∈ s.queue) : n.party ≠ p := hs.party_ne_of_pendingOf_none hclaim.noPending hn
  have ht := hs.enqueue (k := k) r l hclaim.noPending
  have hplace {m : ClaimName} (hm : m ∈ s.queue) : (s.enqueue p k r l).placeOf m = s.placeOf m := by
    rw [State.placeOf_enqueue, if_neg fun he : m = ⟨p, k⟩ => hnew (he ▸ hm)]
  have hplaceNew : (s.enqueue p k r l).placeOf ⟨p, k⟩ = some (r, s.nextArrival) := by rw [State.placeOf_enqueue, if_pos rfl]
  have harrival {m : ClaimName} (hm : m ∈ s.queue) {q : Rect} {b : Nat} (hmp : s.placeOf m = some (q, b)) : b < s.nextArrival := by
    rw [State.placeOf_eq_waiter, Option.map_eq_some_iff] at hmp
    obtain ⟨w, hw, hqb⟩ := hmp
    obtain ⟨rfl, rfl⟩ := Prod.mk.inj hqb
    obtain ⟨hname, hslot⟩ := State.waiter_eq_some.mp hw
    exact State.nextArrival_gt (State.mem_waiters.mpr ⟨hname.symm ▸ hm, hname.symm ▸ hslot⟩)
  -- What is waited on is what was waited on, as the new claim is earlier than none.
  have hwaitsOn {x y : Party} {q : Rect} {a : Nat} (ha : a ≤ s.nextArrival)
      (hw : ((s.enqueue p k r l).waitsOn x q a).has y = true) : (s.waitsOn x q a).has y = true := by
    obtain ⟨hne, hw⟩ := State.waitsOn_iff.mp hw
    refine State.waitsOn_iff.mpr ⟨hne, ?_⟩
    obtain ⟨z, hz, hzo⟩ | ⟨m, hm, hparty, q', b, hmp, hlt, hover⟩ := hw
    · exact .inl ⟨z, hz, by simpa using hzo⟩
    · right
      obtain hm | hm := List.mem_append.mp (State.queue_enqueue .. ▸ hm)
      · exact ⟨m, hm, hparty, q', b, hplace hm ▸ hmp, hlt, hover⟩
      · obtain rfl := List.mem_singleton.mp hm
        rw [hplaceNew] at hmp
        obtain ⟨-, rfl⟩ := Prod.mk.inj (Option.some.inj hmp)
        omega
  have hold {x y : Party} (hx : x ≠ p) (hxy : (s.enqueue p k r l).WaitsFor x y) : s.WaitsFor x y := by
    obtain ⟨n, hn, hparty, q, a, hnp, hw⟩ := ht.waits_iff.mp hxy
    obtain hn | hn := List.mem_append.mp (State.queue_enqueue .. ▸ hn)
    · rw [hplace hn] at hnp
      exact hs.waits_iff.mpr ⟨n, hn, hparty, q, a, hnp, hwaitsOn (harrival hn hnp).le hw⟩
    · obtain rfl := List.mem_singleton.mp hn
      exact absurd hparty.symm hx
  have hfrom {y : Party} (hy : (s.enqueue p k r l).WaitsFor p y) : (s.waitsOn p r s.nextArrival).has y = true := by
    obtain ⟨n, hn, hparty, q, a, hnp, hw⟩ := ht.waits_iff.mp hy
    obtain hn | hn := List.mem_append.mp (State.queue_enqueue .. ▸ hn)
    · exact absurd hparty (hnoparty hn)
    · obtain rfl := List.mem_singleton.mp hn
      rw [hplaceNew] at hnp
      obtain ⟨rfl, rfl⟩ := Prod.mk.inj (Option.some.inj hnp)
      exact hwaitsOn le_rfl hw
  obtain ⟨htwo, hthree⟩ := State.noCycle_iff.mp h
  have hne {x y : Party} (hxy : (s.enqueue p k r l).WaitsFor x y) : x ≠ y := fun he =>
    State.not_waits_self _ y (he ▸ hxy)
  have hcycleTwo {y : Party} (hpy : (s.enqueue p k r l).WaitsFor p y) (hyp : (s.enqueue p k r l).WaitsFor y p) : False :=
    (of_closesCycle hcycle (hfrom hpy)).1 (hold (hne hpy).symm hyp)
  have hcycleThree {y z : Party} (hpy : (s.enqueue p k r l).WaitsFor p y) (hyz : (s.enqueue p k r l).WaitsFor y z)
      (hzp : (s.enqueue p k r l).WaitsFor z p) : False :=
    (of_closesCycle hcycle (hfrom hpy)).2 z (hne hzp) (hne hyz).symm (hold (hne hpy).symm hyz) (hold (hne hzp) hzp)
  refine State.noCycle_iff.mpr ⟨fun x y hxy hyx => ?_, fun x y z hxy hyz hzx => ?_⟩
  · by_cases hx : x = p
    · subst hx; exact hcycleTwo hxy hyx
    · by_cases hy : y = p
      · subst hy; exact hcycleTwo hyx hxy
      · exact htwo x y (hold hx hxy) (hold hy hyx)
  · by_cases hx : x = p
    · subst hx; exact hcycleThree hxy hyz hzx
    · by_cases hy : y = p
      · subst hy; exact hcycleThree hyz hzx hxy
      · by_cases hz : z = p
        · subst hz; exact hcycleThree hzx hxy hyz
        · exact hthree x y z (hold hx hxy) (hold hy hyz) (hold hz hzx)

/-- A claim granted at once has its party wait on no one. -/
theorem grantAtOnce (h : s.NoCycle) (hs : s.QueueOrder) {p : Party} {k : SlotNo} {r : Rect} {l : Option SlotNo}
    (hclaim : s.Placeable p k r l) : (s.grant ⟨p, k⟩ r l).1.NoCycle := by
  have hnew := hclaim.not_mem_queue hs
  have hleft {m : ClaimName} (hm : m ∈ (s.grant ⟨p, k⟩ r l).1.queue) : m ∈ s.queue := by
    rw [State.QueueOrder.queue_grant] at hm
    exact (List.mem_filter.mp hm).1
  refine h.of_fewer hs (hs.grant ⟨p, k⟩ r l) (fun m hm => ⟨hleft hm, ?_⟩) fun z y hz => ?_
  · rw [State.placeOf_grant, if_neg fun he : m = ⟨p, k⟩ => hnew (he ▸ hleft hm)]
  · exact (State.owner_grant hz).imp_right fun hy m hm hparty =>
      hs.party_ne_of_pendingOf_none hclaim.noPending (hleft hm) (hparty.trans hy)

/-! ### Every command -/

theorem serves {c : Instr} (hserves : State.Serves c s t) (h : s.NoCycle) (hqueue : s.QueueLaw) : t.NoCycle := by
  have hs := hqueue.order
  have hempty (hmode : s.mode ≠ .guarding) : s.queue = [] := (State.queueLaw_iff.mp hqueue).2 hmode
  have hmoves {u : State} (hu : s.Moves u) : u.NoCycle := h.moves hs hu
  cases hserves with
  | unchanged => exact h
  | acknowledges => exact h.of_slots hs (by simp) (fun _ _ => by simp) fun _ => by simp
  | joins => exact h.of_slots hs (by simp [State.joins]) (fun _ _ => by simp [State.joins]) fun _ => by simp [State.joins]
  | leaves => exact h.of_slots hs (by simp) (fun _ _ => by simp) fun _ => by simp
  | rearms => exact h.of_slots hs (by simp) (fun _ _ => by simp) fun _ => by simp
  | evicts x =>
    have hscanned := ((State.Moves.refl s).evictClaims x).grantScan
    exact (hmoves hscanned).of_slots (hs.moves hscanned) (by simp [State.evicts]) (fun _ _ => by simp [State.evicts])
      fun _ => by simp [State.evicts]
  | grants _ p k r _ hclaim => exact h.grantAtOnce hs hclaim
  | shifts _ p k source r _ hclaim =>
    exact (h.grantAtOnce hs hclaim).moves (hs.grant _ _ _) (s.settleShift_moves p k source r)
  | queues _ p k r link _ hclaim _ hcycle => exact h.enqueue hs hclaim hcycle
  | withdraws _ p k w _ hw => exact hmoves ((State.Moves.refl s).step (.remove s _ w hw)).grantScan
  | releases _ p k _ hheld => exact hmoves ((State.Moves.refl s).step (.release s p k hheld)).grantScan
  | releasesTrip _ x => exact hmoves ((State.Moves.refl s).step (.releaseTrip s x)).grantScan
  | blocks _ c0 c1 r0 r1 =>
    unfold blockRequest
    split
    · exact h
    · split
      · exact h
      · rename_i r b hrect
        dsimp only
        generalize (fun t => r.contains t && (s.tile t).service == .opened) = f
        rw [withdrawAll_ground]
        have hwithdrawn : s.Moves (s.queue.foldl (withdrawOver f) s) := (State.Moves.refl s).withdrawAll f s.queue
        set u := s.queue.foldl (withdrawOver f) s with hu
        have huorder := hs.moves hwithdrawn
        have hblocked : State.NoCycle { u with
            tiles := s.tiles.update fun t q => if r.contains t = true then q.block else q,
            closing := s.closing + countTiles fun t => r.contains t && (s.tile t).blocksToClosing } := by
          refine (hmoves hwithdrawn).of_slots huorder rfl (fun _ _ => rfl) fun z => ?_
          refine (congrArg TileRecord.owner (TileMap.get_update ..)).trans ?_
          rw [hu, tile_withdrawAll]
          split_ifs
          · exact (s.tiles.get z).block_parts.1
          · rfl
        split
        · exact hblocked.moves (huorder.of_slots rfl fun _ _ => rfl) (State.Moves.refl _).grantScan
        · exact hblocked
  | unblocks _ c0 c1 r0 r1 =>
    unfold unblockRequest
    split
    · exact h
    · split
      · exact h
      · dsimp only
        refine NoCycle.moves ?_ (hs.of_slots (by simp) fun p k => by rw [slot_lowerClosing]; rfl) (State.Moves.refl _).grantScan
        refine h.of_slots hs (by simp) (fun p k => by rw [slot_lowerClosing]; rfl) fun z => ?_
        rw [tile_lowerClosing]
        refine (congrArg TileRecord.owner (TileMap.get_update ..)).trans ?_
        split_ifs <;> rfl
  | writes _ row start entries _ hsetup =>
    refine of_empty (Eq.trans ?_ (hempty (by simp [hsetup])))
    unfold writeRowRequest
    split_ifs <;> rfl
  | sets _ _ _ _ hsetup | starts _ _ hsetup => exact of_empty (hempty (by simp [hsetup]))
  | clearsHalt _ _ hhalted => exact of_empty (hempty (by simp [hhalted]))
  | stops _ _ hsetup =>
    have hlaw := hqueue.stopRequest
    refine of_empty ((State.queueLaw_iff.mp hlaw).2 ?_)
    rw [stopRequest, if_neg hsetup]
    simp
  | halts => exact of_empty ((State.queueLaw_iff.mp (hqueue.haltCell .request)).2 (by simp))

theorem assertLine (h : s.NoCycle) (hqueue : s.QueueLaw) : s.assertLine.NoCycle := by
  have hline : (({ s with haltLevel := true } : State).raise .C (.haltLine s.mode)).QueueLaw :=
    hqueue.of_slots (by simp) (by simp) fun p k => (State.slot_raise _ _ _ p k).trans rfl
  unfold State.assertLine
  dsimp only
  split
  · exact of_empty ((State.queueLaw_iff.mp (hline.haltCell .line)).2 (by simp))
  · exact h.of_slots hqueue.order (by simp) (fun _ _ => (State.slot_raise ..).trans rfl)
      fun z => congrArg TileRecord.owner ((State.tile_raise ..).trans rfl)

theorem does {c : Instr} (hdoes : State.Does c s t) (h : s.NoCycle) (hqueue : s.QueueLaw) : t.NoCycle := by
  have hs := hqueue.order
  cases hdoes with
  | nothing => exact h
  | serves _ q _ u a _ _ hserves =>
    have hmoves := (State.Moves.refl s).afterReport q.port q.rep
    have hlaw := hqueue.moves hmoves
    exact (serves hserves (h.moves hs hmoves) hlaw).of_slots (State.QueueLaw.serves hserves hlaw).order (by simp)
      (fun _ _ => by simp) fun _ => by simp
  | periodExpires x _ htimer => exact h.moves hs ((State.Moves.refl s).periodExpiry x htimer)
  | waitExpires p k _ w hw =>
    have hremoved := hs.removePending ⟨p, k⟩
    exact ((h.removePending hs ⟨p, k⟩).of_slots hremoved (by simp) (fun _ _ => by simp) fun _ => by simp).moves
      (hremoved.of_slots (by simp) fun _ _ => by simp) (State.Moves.refl _).grantScan
  | yieldAsked p k _ r w l hslot =>
    refine h.of_same hs (by simp) (fun n => ?_) fun z => by simp
    rw [State.placeOf_congr fun q j => slot_raiseYield .., State.placeOf, State.slot_setSlot_eq]
    split_ifs with hn
    · rw [State.placeOf, hn.1, hn.2, hslot]; rfl
    · rfl
  | lineAsserted =>
    exact assertLine (s := { s with haltPinLow := true }) (h.of_slots hs rfl (fun _ _ => rfl) fun _ => rfl)
      (hqueue.of_slots rfl rfl fun _ _ => rfl)
  | resets => exact of_empty rfl
  | released _ u _ hu =>
    have hheld : State.NoCycle { s with held := false } := h.of_slots hs rfl (fun _ _ => rfl) fun _ => rfl
    have hlaw : State.QueueLaw { s with held := false } := hqueue.of_slots rfl rfl fun _ _ => rfl
    have hu' : u.NoCycle ∧ u.QueueLaw := by
      rw [hu]
      split_ifs
      · exact ⟨hheld.assertLine hlaw, hlaw.assertLine⟩
      · exact ⟨h.of_slots hs rfl (fun _ _ => rfl) fun _ => rfl, hqueue.of_slots rfl rfl fun _ _ => rfl⟩
    exact hu'.1.of_slots hu'.2.order (by simp) (fun _ _ => by simp) fun _ => by simp
  | heldExchange p f _ _ g n =>
    have hshifts : (s.shifts p g).NoCycle := h.of_slots hs (by simp) (fun _ _ => by simp) fun _ => by simp
    exact hshifts.of_slots (hs.of_slots (by simp) fun _ _ => by simp) rfl (fun _ _ => rfl) fun _ => rfl
  | heldLine | lineReleased => exact h.of_slots hs rfl (fun _ _ => rfl) fun _ => rfl
  | _ => exact h.of_slots hs (by simp) (fun _ _ => by simp) fun _ => by simp

theorem takeSection (h : s.NoCycle) (hqueue : s.QueueLaw) (x : Arm) (rep : Report) : (s.takeSection x rep).NoCycle := by
  have hmoves := (State.Moves.refl s).takeReport x.party (some rep)
  exact (h.moves hqueue.order hmoves).of_slots (hqueue.order.moves hmoves) (by simp [State.takeSection])
    (fun _ _ => by simp [State.takeSection]) fun _ => by simp [State.takeSection]

theorem elapse (h : s.NoCycle) (hqueue : s.QueueLaw) (n : Nat) : (s.elapse n).NoCycle := by
  refine h.of_same hqueue.order rfl (fun m => ?_) fun z => by rw [tile_elapse]
  rw [State.placeOf, State.slot_elapse]
  unfold State.placeOf
  cases s.slot m.party m.slot <;> rfl

end State.NoCycle

/-- Settles O60: what frees a tile or an earlier claim ends with a grant scan, and a wait that comes newly leads to a party
that waits on no one, or from a claim that has passed the cycle test. -/
theorem stepKeepsNoneGrantableAndNoCycle : Obligations.StepKeepsNoneGrantableAndNoCycle := by
  unfold Obligations.StepKeepsNoneGrantableAndNoCycle
  intro s t hs h
  refine ⟨fun hnone => ?_, fun _ hcycle => ?_⟩
  · exact (step_keeps (P := fun u => u.QueueLaw ∧ u.NoneGrantable)
      (fun c s t hdoes hu => ⟨State.QueueLaw.does hdoes hu.1, State.NoneGrantable.does hdoes hu.2 hu.1⟩)
      (fun s rest hu => ⟨hu.1, hu.2⟩)
      (fun s x rep _ hu => ⟨State.QueueLaw.takeSection hu.1 x rep, State.NoneGrantable.takeSection hu.2 hu.1 x rep⟩)
      (fun s n hu => ⟨State.QueueLaw.elapse hu.1 n, State.NoneGrantable.elapse hu.2 n⟩) ⟨hs.queue, hnone⟩ h).2
  · exact (step_keeps (P := fun u => u.QueueLaw ∧ u.NoCycle)
      (fun c s t hdoes hu => ⟨State.QueueLaw.does hdoes hu.1, State.NoCycle.does hdoes hu.2 hu.1⟩)
      (fun s rest hu => ⟨hu.1, hu.2⟩)
      (fun s x rep _ hu => ⟨State.QueueLaw.takeSection hu.1 x rep, State.NoCycle.takeSection hu.2 hu.1 x rep⟩)
      (fun s n hu => ⟨State.QueueLaw.elapse hu.1 n, State.NoCycle.elapse hu.2 hu.1 n⟩) ⟨hs.queue, hcycle⟩ h).2

end Sys2Proof.Machine
end

section
/-! SUPPORT. CLAIM and SHIFT: the checks of R62 and R102, the cycle test, and what a grant at once does. -/

namespace Sys2Proof.Machine

open Sys2Proof

/-! ### The words of the checks -/

theorem Params.rect_of_inside {ps : Params} {c0 c1 r0 r1 : Byte} (h : ps.Inside c0 c1 r0 r1) :
    ps.rect c0 c1 r0 r1 = some (Rect.ofCorners c0 c1 r0 r1, exchanged c0 c1 r0 r1) := by
  obtain ⟨hc0, hc1, hr0, hr1⟩ := h
  rw [Params.rect, if_neg (by omega), exchanged, Bool.decide_or]
  rfl

theorem Params.rect_of_not_inside {ps : Params} {c0 c1 r0 r1 : Byte} (h : ¬ps.Inside c0 c1 r0 r1) :
    ps.rect c0 c1 r0 r1 = none := by
  rw [Params.rect, if_pos]
  dsimp only [Params.Inside] at h
  omega

theorem State.firstEmpty_of_newSlot {s : State} {p : Party} {k : SlotNo} (h : s.NewSlot p k) : s.firstEmpty p = some k := by
  obtain ⟨hempty, hlower, -⟩ := h
  cases hfirst : s.firstEmpty p with
  | none => exact absurd hempty (State.firstEmpty_none.mp hfirst k)
  | some j =>
    obtain ⟨hj, hbelow⟩ := State.firstEmpty_some hfirst
    obtain hlt | rfl | hgt := lt_trichotomy j k
    · exact absurd hj (hlower j hlt)
    · rfl
    · exact absurd hempty (hbelow k hgt)

theorem State.firstProtected_eq_none_iff {s : State} {r : Rect} :
    s.firstProtected r = none ↔ ∀ t, r.contains t = true → (s.tile t).service = .opened := by
  simp [State.firstProtected, firstTile_eq_none]

/-- A new claim is later than every claim of the queue. -/
theorem State.earlierOver_nextArrival {s : State} {w : Waiter} (hw : w ∈ s.waiters) (r : Rect) :
    w.earlierOver s.nextArrival r = w.rect.overlaps r := by
  rw [Waiter.earlierOver, decide_eq_true (State.nextArrival_gt hw), Bool.true_and]

theorem State.grantable_nextArrival_iff {s : State} {p : Party} {r : Rect} :
    s.grantable p r s.nextArrival = true ↔ s.GrantableAtOnce p r := by
  unfold State.grantable
  rw [Bool.and_eq_true, Bool.not_eq_true', List.any_eq_false, List.all_eq_true]
  refine and_congr ?_ (forall₂_congr fun w hw => ?_)
  · simp [TileRecord.grantableTo, imp_iff_not_or]
  · rw [State.earlierOver_nextArrival hw, Bool.not_eq_true]

theorem State.waitsOn_iff_claimWaits {s : State} {x y : Party} {r : Rect} {a : Nat} :
    (s.waitsOn x r a).has y = true ↔ s.ClaimWaits x r (fun v => v.wait.arrival < a) y := by
  rw [State.waitsOn, PartySet.has_of, Bool.and_eq_true, Bool.or_eq_true, decide_eq_true_eq, State.ownsIn_iff]
  simp [Waiter.earlierOver]

theorem State.waitsOn_nextArrival_iff {s : State} {x y : Party} {r : Rect} :
    (s.waitsOn x r s.nextArrival).has y = true ↔ s.ClaimWaits x r (fun _ => True) y := by
  rw [State.waitsOn_iff_claimWaits]
  refine and_congr_right fun _ => or_congr_right (exists_congr fun v => and_congr_right fun hv => and_congr_right fun _ => ?_)
  exact and_congr_left fun _ => iff_true_intro (State.nextArrival_gt hv)

theorem State.partyWaitsOn_iff {s : State} {x y : Party} : (s.partyWaitsOn x).has y = true ↔ s.Waits x y := by
  unfold State.partyWaitsOn State.Waits
  cases s.pendingOf x with
  | none => cases y <;> simp [PartySet.has]
  | some w => simp [State.waitsOn_iff_claimWaits]

theorem State.closesCycle_iff {s : State} {x : Party} {r : Rect} : s.closesCycle x r = true ↔ s.ClosesCycle x r := by
  simp [State.closesCycle, State.ClosesCycle, State.waitsOn_nextArrival_iff, State.partyWaitsOn_iff, and_assoc]

/-! ### The shared checks (R62, R102) -/

/-- The checks of CLAIM after check 2, and of SHIFT after those on its source, up to the slot of the new claim. -/
def State.placing (s : State) (p : Party) (c0 c1 r0 r1 : Byte) (place : SlotNo → Rect → Bool → State × Answer) :
    State × Answer :=
  match s.params.rect c0 c1 r0 r1 with
  | none => refuse s .badRect
  | some (r, swapped) =>
    if (s.pendingOf p).isSome then refuse s .pendingExists
    else
      match s.firstEmpty p with
      | none => refuse s .tableFull
      | some k => place k r swapped

/-- The last check and the placing of a new claim, that of a SHIFT with its source. -/
def State.placed (s : State) (p : Party) : Option SlotNo → SlotNo → Rect → Bool → State × Answer
  | none => placeClaim s p
  | some source => fun k => placeShift s p k source

/-- The payload of QUEUED: that of a CLAIM, or that of a SHIFT with its source. -/
def queuedPayload (k : SlotNo) (r : Rect) (waits : PartySet) : Option SlotNo → Payload
  | none => .claimQueued k r waits
  | some source => .shiftQueued k source r waits

theorem claimRequest_eq_placing {s : State} {p : Party} (c0 c1 r0 r1 : Byte) (hmode : s.mode = .guarding)
    (hmay : s.MayClaim p) : claimRequest p c0 c1 r0 r1 s = s.placing p c0 c1 r0 r1 (s.placed p none) := by
  rw [claimRequest, if_neg (not_not.mpr hmode), State.standing_of_mayClaim hmay]
  rfl

theorem shiftRequest_eq_placing {s : State} {p : Party} {b : Byte} {source : SlotNo} (c0 c1 r0 r1 : Byte)
    (hmode : s.mode = .guarding) (hmay : s.MayClaim p) (hsource : s.shiftSource p b = .ok source) :
    shiftRequest p b c0 c1 r0 r1 s = s.placing p c0 c1 r0 r1 (s.placed p (some source)) := by
  rw [shiftRequest, if_neg (not_not.mpr hmode), State.standing_of_mayClaim hmay, hsource]
  rfl

section Placing

variable {s : State} {p : Party} {c0 c1 r0 r1 : Byte} {place : SlotNo → Rect → Bool → State × Answer}

theorem State.placing_of_not_inside (h : ¬s.params.Inside c0 c1 r0 r1) :
    s.placing p c0 c1 r0 r1 place = (s, ⟨.badRect, false, .empty⟩) := by
  rw [State.placing, Params.rect_of_not_inside h]
  rfl

theorem State.placing_of_pending (h : s.params.Inside c0 c1 r0 r1) (hpending : ¬s.NoPending p) :
    s.placing p c0 c1 r0 r1 place = (s, ⟨.pendingExists, false, .empty⟩) := by
  have hsome : (s.pendingOf p).isSome = true := by
    rw [← Option.ne_none_iff_isSome, ne_eq, State.pendingOf_none]
    exact hpending
  rw [State.placing, Params.rect_of_inside h]
  exact if_pos hsome

theorem State.placing_of_full (h : s.params.Inside c0 c1 r0 r1) (hpending : s.NoPending p) (hfull : ∀ k, s.slot p k ≠ .empty) :
    s.placing p c0 c1 r0 r1 place = (s, ⟨.tableFull, false, .empty⟩) := by
  have hnone : s.pendingOf p = none := State.pendingOf_none.mpr hpending
  rw [State.placing, Params.rect_of_inside h, hnone, State.firstEmpty_none.mpr hfull]
  rfl

theorem State.placing_of_slot (h : s.params.Inside c0 c1 r0 r1) (hpending : s.NoPending p) {k : SlotNo}
    (hslot : s.firstEmpty p = some k) :
    s.placing p c0 c1 r0 r1 place = place k (Rect.ofCorners c0 c1 r0 r1) (exchanged c0 c1 r0 r1) := by
  have hnone : s.pendingOf p = none := State.pendingOf_none.mpr hpending
  rw [State.placing, Params.rect_of_inside h, hnone, hslot]
  rfl

end Placing

section Placed

variable {s : State} {p : Party} {k : SlotNo} {r : Rect} {b : Bool}

theorem State.placed_of_protected (link : Option SlotNo) {t : Tile} (h : s.firstProtected r = some t) :
    s.placed p link k r b = (s, ⟨.protected_, false, .tile t⟩) := by
  cases link with
  | none => simp [State.placed, placeClaim, h]
  | some source => simp [State.placed, placeShift, h]

theorem State.placed_of_not_grantable (link : Option SlotNo) (h : s.firstProtected r = none)
    (hgrant : s.grantable p r s.nextArrival = false) :
    s.placed p link k r b =
      if s.closesCycle p r = true then (s, ⟨.cycle, false, .empty⟩)
      else (s.enqueue p k r link, ⟨.queued, b, queuedPayload k r (s.waitsOn p r s.nextArrival) link⟩) := by
  cases link with
  | none => simp [State.placed, placeClaim, h, hgrant, refuse, queuedPayload]
  | some source => simp [State.placed, placeShift, h, hgrant, refuse, queuedPayload]

theorem State.placed_none_of_grantable (h : s.GrantableAtOnce p r) :
    s.placed p none k r b = ((s.holdTarget ⟨p, k⟩ r none), ⟨.granted, b, .claimGranted k r⟩) := by
  have hopened : s.firstProtected r = none := State.firstProtected_eq_none_iff.mpr fun t ht => (h.1 t ht).1
  simp only [State.placed, placeClaim, hopened, State.grantable_nextArrival_iff.mpr h, if_true, State.grant_none]

theorem State.placed_some_of_grantable (h : s.GrantableAtOnce p r) (source : SlotNo) :
    s.placed p (some source) k r b = ((s.settleShift p k source r).1,
      ⟨.granted, b, .shiftGranted k source r (s.settleShift p k source r).2.1 (s.settleShift p k source r).2.2⟩) := by
  have hopened : s.firstProtected r = none := State.firstProtected_eq_none_iff.mpr fun t ht => (h.1 t ht).1
  simp only [State.placed, placeShift, hopened, State.grantable_nextArrival_iff.mpr h, if_true]

end Placed

/-- A CLAIM or SHIFT of a party that may claim, past the checks on the source. -/
theorem exec_of_mayClaim {p : Party} {tag : BitVec 4} {rep : Option Report} {c0 c1 r0 r1 : Byte} {s s1 : State} {c : Instr}
    {kind : Byte} {link : Option SlotNo} (hs1 : s1 = s.afterReport p rep) (htaken : s.taken p c = true) (hmode : s.mode = .guarding)
    (hc : c = .claim p tag rep c0 c1 r0 r1 ∧ kind = 32 ∧ link = none ∨
      ∃ src b, c = .shift p tag rep b c0 c1 r0 r1 ∧ kind = 33 ∧ link = some src ∧
        s1.shiftSource p b = .ok src)
    (hmay : s1.MayClaim p) :
    exec c s = .next ((s1.placing p c0 c1 r0 r1 (s1.placed p link)).1.placeReply p tag kind
      (s1.placing p c0 c1 r0 r1 (s1.placed p link)).2) := by
  have hmode1 : s1.mode = .guarding := hs1 ▸ (s.afterReport_mode p rep).trans hmode
  obtain ⟨rfl, rfl, rfl⟩ | ⟨src, b, rfl, rfl, rfl, hsource⟩ := hc
  · rw [exec_claim p tag rep c0 c1 r0 r1 htaken, ← hs1, claimRequest_eq_placing c0 c1 r0 r1 hmode1 hmay]
  · rw [exec_shift p tag rep b c0 c1 r0 r1 htaken, ← hs1, shiftRequest_eq_placing c0 c1 r0 r1 hmode1 hmay hsource]

/-- Settles O41: the checks stand in the order of R62 and R102, each with its refusal. -/
theorem claimAndShiftRefusals : Obligations.ClaimAndShiftRefusals := by
  unfold Obligations.ClaimAndShiftRefusals
  intro p tag rep c0 c1 r0 r1 s c kind htaken hmode s1 r refused isClaim isShift
  have hmode1 : s1.mode = .guarding := (s.afterReport_mode p rep).trans hmode
  refine ⟨fun x hx hc => ?_, fun hmay hc => ?_⟩
  · have hstanding {code : Result} (hcode : s1.standing p = some code) : refused ⟨code, false, .empty⟩ := by
      obtain ⟨rfl, rfl⟩ | ⟨b, rfl, rfl⟩ := hc
      · simp only [refused, exec_claim p tag rep c0 c1 r0 r1 htaken]
        rw [claimRequest, if_neg (not_not.mpr hmode1), hcode]
        rfl
      · simp only [refused, exec_shift p tag rep b c0 c1 r0 r1 htaken]
        rw [shiftRequest, if_neg (not_not.mpr hmode1), hcode]
        rfl
    have harm : p.arm = some x := by rw [hx, Arm.arm_party]
    constructor
    · intro hoffline
      exact hstanding (by simp [State.standing, harm, hoffline])
    · intro htripped
      exact hstanding (by simp [State.standing, harm, htripped])
  · obtain ⟨link, hexec⟩ : ∃ link, exec c s = .next ((s1.placing p c0 c1 r0 r1 (s1.placed p link)).1.placeReply p tag kind
        (s1.placing p c0 c1 r0 r1 (s1.placed p link)).2) := by
      obtain ⟨rfl, rfl⟩ | ⟨b, src, ⟨rfl, rfl⟩, hsource⟩ := hc
      · exact ⟨none, exec_of_mayClaim (s1 := s1) rfl htaken hmode (.inl ⟨rfl, rfl, rfl⟩) hmay⟩
      · exact ⟨some src, exec_of_mayClaim (s1 := s1) rfl htaken hmode (.inr ⟨src, b, rfl, rfl, rfl, hsource⟩) hmay⟩
    have hrefused {a : Answer} (h : s1.placing p c0 c1 r0 r1 (s1.placed p link) = (s1, a)) : refused a := by
      rw [h] at hexec
      exact hexec
    refine ⟨fun h => hrefused (State.placing_of_not_inside h), fun hinside => ⟨fun h => hrefused (State.placing_of_pending hinside h),
      fun hpending => ⟨fun h => hrefused (State.placing_of_full hinside hpending h), fun ⟨k, hk⟩ t ht => ?_⟩⟩⟩
    cases hfirst : s1.firstEmpty p with
    | none => exact absurd hk (State.firstEmpty_none.mp hfirst k)
    | some j =>
      have hprotected : s1.firstProtected r = some t :=
        firstTile_eq_some_iff.mpr ((isFirst_congr (fun z => by simp) t).mpr ht)
      exact hrefused ((State.placing_of_slot hinside hpending hfirst).trans (State.placed_of_protected link hprotected))

/-- Settles O40: the cycle test of the model is the one of R85, and a claim that passes it enters the queue. -/
theorem notGrantableIsQueuedOrCycle : Obligations.NotGrantableIsQueuedOrCycle := by
  unfold Obligations.NotGrantableIsQueuedOrCycle
  intro p tag rep c0 c1 r0 r1 k s c kind link htaken hmode s1 r hc hmay hinside hpending hslot hopened hgrant
  have hexec := exec_of_mayClaim (s1 := s1) rfl htaken hmode hc hmay
  rw [State.placing_of_slot hinside hpending (State.firstEmpty_of_newSlot hslot),
    State.placed_of_not_grantable link
    (State.firstProtected_eq_none_iff.mpr hopened)
    (Bool.eq_false_iff.mpr fun h => hgrant (State.grantable_nextArrival_iff.mp h))] at hexec
  refine ⟨fun hcycle => ?_, fun hcycle => ?_⟩
  · rw [if_pos (State.closesCycle_iff.mpr hcycle)] at hexec
    exact hexec
  · rw [if_neg fun h => hcycle (State.closesCycle_iff.mp h)] at hexec
    exact ⟨s1.nextArrival, s1.waitsOn p r s1.nextArrival, queuedPayload k r (s1.waitsOn p r s1.nextArrival) link, hexec,
      fun w hw => State.nextArrival_gt hw, fun y => State.waitsOn_nextArrival_iff, by cases link <;> rfl⟩

/-! ### Granted at once (R67, R107 to R109) -/

section HoldTarget

variable {s : State} {p : Party} {k : SlotNo}

theorem State.tilesGranted_holdTarget (s : State) (p : Party) (k : SlotNo) (r : Rect) (l : Option SlotNo) :
    s.TilesGranted (s.holdTarget ⟨p, k⟩ r l) p r := fun t => by
  rw [State.tile_holdTarget, State.tile_addHolds]
  rfl

theorem State.tripTiles_holdTarget (s : State) (n : ClaimName) (r : Rect) (l : Option SlotNo) (x : Arm) :
    (s.holdTarget n r l).tripTiles x = s.tripTiles x := by
  simp [State.holdTarget]

theorem State.holdTarget_frame (h : (⟨p, k⟩ : ClaimName) ∉ s.queue) (r : Rect) (l : Option SlotNo) :
    s.holdTarget ⟨p, k⟩ r l =
      { s with tiles := (s.holdTarget ⟨p, k⟩ r l).tiles, claims := (s.holdTarget ⟨p, k⟩ r l).claims } := by
  have hqueue : s.queue.filter (· ≠ (⟨p, k⟩ : ClaimName)) = s.queue :=
    List.filter_eq_self.mpr fun n hn => decide_eq_true fun he : n = ⟨p, k⟩ => h (he ▸ hn)
  calc s.holdTarget ⟨p, k⟩ r l
      = { s with tiles := (s.holdTarget ⟨p, k⟩ r l).tiles, claims := (s.holdTarget ⟨p, k⟩ r l).claims,
                 queue := s.queue.filter (· ≠ (⟨p, k⟩ : ClaimName)) } := rfl
    _ = _ := by rw [hqueue]

end HoldTarget

/-- Settles O39: the claim is granted on the state that the report leaves. -/
theorem claimGrantedAtOnce : Obligations.ClaimGrantedAtOnce := by
  unfold Obligations.ClaimGrantedAtOnce
  intro p tag rep c0 c1 r0 r1 k s htaken hmode s1 r hmay hinside hpending hslot hgrant
  have hexec := exec_of_mayClaim (s1 := s1) rfl htaken hmode (.inl ⟨rfl, rfl, rfl⟩) hmay
  rw [State.placing_of_slot hinside hpending (State.firstEmpty_of_newSlot hslot),
    State.placed_none_of_grantable hgrant] at hexec
  refine ⟨s1.holdTarget ⟨p, k⟩ r none, hexec, s1.tilesGranted_holdTarget p k r none, ?_, fun q j hne => ?_,
    fun x => s1.tripTiles_holdTarget _ r none x, State.holdTarget_frame hslot.2.2 r none⟩
  · rw [State.slot_holdTarget, if_pos ⟨rfl, rfl⟩]
  · rw [State.slot_holdTarget, if_neg fun h => hne (by rw [h.1, h.2])]

/-- Settles O43: what the grant of the target leaves is `g`; the drain test or party C ends the source then. -/
theorem shiftGrantedAtOnce : Obligations.ShiftGrantedAtOnce := by
  unfold Obligations.ShiftGrantedAtOnce
  intro p tag rep source c0 c1 r0 r1 k src old l s htaken hmode s1 r hmay hsource hheld hinside hpending hslot hgrant
  have hexec := exec_of_mayClaim (s1 := s1) rfl htaken hmode (.inr ⟨src, source, rfl, rfl, rfl, hsource⟩) hmay
  rw [State.placing_of_slot hinside hpending (State.firstEmpty_of_newSlot hslot),
    State.placed_some_of_grantable hgrant] at hexec
  have hne : src ≠ k := fun he => by rw [he, hslot.1] at hheld; cases hheld
  have hsrc : (s1.holdTarget ⟨p, k⟩ r (some src)).slot p src = .held old l := by
    rw [State.slot_holdTarget, if_neg fun h => hne h.2, hheld]
  by_cases hp : p = .C
  · subst hp
    refine ⟨s1.holdTarget ⟨.C, k⟩ r (some src), s1.tilesGranted_holdTarget _ k r _, ?_, hsrc, fun q j hkey _ => ?_,
      fun x => s1.tripTiles_holdTarget _ r _ x, State.holdTarget_frame hslot.2.2 r _, ?_, fun _ => hexec⟩
    · rw [State.slot_holdTarget, if_pos ⟨rfl, rfl⟩]
    · rw [State.slot_holdTarget, if_neg fun h => hkey (by rw [h.1, h.2])]
    · rintro ⟨x, hx, -⟩
      cases x <;> cases hx
  · obtain ⟨x, rfl⟩ : ∃ x : Arm, p = x.party := by
      cases p with
      | A => exact ⟨.A, rfl⟩
      | B => exact ⟨.B, rfl⟩
      | C => exact absurd rfl hp
    set g := (s1.holdTarget ⟨x.party, k⟩ r (some src)).setSlot x.party src (.draining old k) with hg
    have hgrantEq : s1.grant ⟨x.party, k⟩ r (some src) = (g, none) := by
      refine Prod.ext ((State.grant_arm s1 r src hp).trans (State.startDrain_of_held hsrc)) ?_
      cases x <;> rfl
    have hslots (q : Party) (j : SlotNo) : g.slot q j = if q = x.party ∧ j = src then .draining old k else
        if q = x.party ∧ j = k then .held r (some src) else s1.slot q j := by
      rw [hg, State.slot_setSlot_eq, State.slot_holdTarget]
    have hgsrc : g.slot x.party src = .draining old k := by rw [hslots, if_pos ⟨rfl, rfl⟩]
    have hsettle : s1.settleShift x.party k src r =
        if g.drainPasses x old r = true then
          ((g.releaseSlot x.party src).1.grantScan, .released, (g.releaseSlot x.party src).2)
        else (g, .draining, 0) := by
      unfold State.settleShift
      rw [hgrantEq, Arm.arm_party]
      dsimp only
      rw [hgsrc]
      rfl
    have hpasses : g.drainPasses x old r = true ↔
        ¬∃ y, x.party = y.party ∧ ∃ t, old.contains t = true ∧ r.contains t = false ∧ s1.touches y t = true := by
      rw [State.drainPasses_iff]
      have htouches : ∀ t, g.touches x t = s1.touches x t :=
        State.touches_congr (congrArg ArmUnit.evaluation (by simp [hg, State.holdTarget]))
      refine not_congr ⟨fun ⟨t, hold, hr, ht⟩ => ⟨x, rfl, t, hold, hr, htouches t ▸ ht⟩, fun ⟨y, hy, t, hold, hr, ht⟩ => ?_⟩
      obtain rfl := Arm.party_injective hy
      exact ⟨t, hold, hr, (htouches t).trans ht⟩
    refine ⟨g, fun t => ?_, ?_, ?_, fun q j hkey hsrcKey => ?_, fun y => ?_, ?_, fun hstays => ?_, fun hstays => ?_⟩
    · rw [hg, State.tile_setSlot]
      exact s1.tilesGranted_holdTarget x.party k r _ t
    · rw [hslots, if_neg fun h => hne h.2.symm, if_pos ⟨rfl, rfl⟩]
    · rw [hgsrc, if_neg hp]
    · rw [hslots, if_neg fun h => hsrcKey (by rw [h.1, h.2]), if_neg fun h => hkey (by rw [h.1, h.2])]
    · rw [hg, State.tripTiles_setSlot, State.tripTiles_holdTarget]
    · calc g = { s1.holdTarget ⟨x.party, k⟩ r (some src) with claims := g.claims } := rfl
        _ = _ := by rw [State.holdTarget_frame hslot.2.2 r (some src)]; rfl
    · rw [hsettle, if_neg fun h => hpasses.mp h hstays] at hexec
      exact hexec
    · rw [hsettle, if_pos (hpasses.mpr hstays)] at hexec
      exact hexec

end Sys2Proof.Machine
end

section
/-! SUPPORT. RELEASE and what a release does (R69 to R73), and the timers of a waiting claim (R92, R93). -/

namespace Sys2Proof.Machine

open Sys2Proof

/-! ### The end of a hold (R15, R16, R69) -/

theorem TileRecord.dropHold_eq_ended (q : TileRecord) : q.dropHold = q.ended := by
  unfold TileRecord.dropHold TileRecord.ended TileRecord.lastHold
  by_cases h : q.hold ≤ 1
  · rw [if_pos (decide_eq_true h), if_neg (show ¬1 < q.hold from h.not_gt)]
  · rw [if_neg (by simpa using h), if_pos (show 1 < q.hold from not_le.mp h)]

theorem State.lowerClosing_eq (s : State) (n : Nat) : s.lowerClosing n =
    { s with closing := s.closing - n,
             portC := if 0 < s.closing ∧ s.closing ≤ n then s.portC.raise .blockDone else s.portC } := by
  unfold State.lowerClosing
  simp only [Nat.sub_eq_zero_iff_le]
  split_ifs <;> rfl

theorem State.holdsEnded_dropHolds (s : State) (f : Tile → Bool) : s.HoldsEnded (s.dropHolds f) f := by
  refine ⟨fun t => ?_, ?_, ?_⟩
  · rw [State.tile_dropHolds, TileRecord.dropHold_eq_ended]
  all_goals rw [State.dropHolds, State.lowerClosing_eq]
  · exact ⟨rfl, rfl⟩

theorem State.holdsEnded_of_claims {s u : State} {f : Tile → Bool} (h : s.HoldsEnded u f) (c : ClaimTable) :
    s.HoldsEnded { u with claims := c } f := by
  obtain ⟨htile, hclosing, hframe⟩ := h
  exact ⟨htile, hclosing, congrArg (fun v : State => { v with claims := c }) hframe⟩

theorem State.holdsEnded_releaseSlot {s : State} {p : Party} {k : SlotNo} {r : Rect} (h : (s.slot p k).heldRect = some r) :
    s.HoldsEnded (s.releaseSlot p k).1 r.contains := by
  rw [State.releaseSlot, h]
  exact State.holdsEnded_of_claims (State.holdsEnded_of_claims (s.holdsEnded_dropHolds r.contains) _) _

theorem State.holdsEnded_releaseTrip (s : State) (x : Arm) : s.HoldsEnded (s.releaseTrip x).1 (s.inTrip x) :=
  State.holdsEnded_of_claims (s.holdsEnded_dropHolds (s.inTrip x)) _

/-- Settles O45: the tiles lose a hold, and the slots are those of the model's unlinking. -/
theorem releaseEndsHolds : Obligations.ReleaseEndsHolds := by
  unfold Obligations.ReleaseEndsHolds
  constructor
  · intro s p k r hheld u
    have hsome : (s.slot p k).heldRect.isSome = true := by rw [hheld]; rfl
    have hslot (q : Party) (j : SlotNo) : u.slot q j =
        if q = p then (if j = k then .empty else (s.slot p j).unlink k) else s.slot q j := s.slot_releaseSlot p q k j hsome
    have hother {j : SlotNo} (hj : j ≠ k) : u.slot p j = (s.slot p j).unlink k := by rw [hslot, if_pos rfl, if_neg hj]
    refine ⟨State.holdsEnded_releaseSlot hheld, ?_, by rw [hslot, if_pos rfl, if_pos rfl], fun j q w l hj hc => ?_,
      fun j q l hj hc => ?_, fun j q l hj hc => ?_, fun j hc => ?_, fun q j hq => by rw [hslot, if_neg hq],
      s.tripTiles_releaseSlot p k⟩
    · rw [State.releaseSlot, hheld]
      rfl
    · rw [hother hj, hc]
      cases l <;> simp [Claim.unlink]
    · rw [hother hj, hc]
      cases l <;> simp [Claim.unlink]
    · rw [hother hj, hc]
      rfl
    · rw [hslot, if_pos rfl]
      split_ifs
      · rfl
      · rw [hc]; rfl
  · intro s x u
    exact ⟨s.holdsEnded_releaseTrip x, rfl, by simp [u, State.releaseTrip],
      (State.tripTiles_setTripTiles_of_ne _ _ (Arm.other_ne x)).trans (by simp), fun p k => by simp [u, State.releaseTrip]⟩

/-! ### RELEASE (R70, R71) -/

theorem State.occupiedTile_eq_some_iff {s : State} {x : Arm} {f : Tile → Bool} {t : Tile} :
    s.occupiedTile x.party f = some t ↔
      IsFirst (fun z => f z = true ∧ (s.tile z).hold ≤ 1 ∧ s.touches x z = true) t := by
  unfold State.occupiedTile
  rw [Arm.arm_party]
  exact firstTile_eq_some_iff.trans (isFirst_congr (fun z => by simp [TileRecord.lastHold, and_assoc]) t)

theorem State.occupiedTile_eq_none {s : State} {p : Party} {f : Tile → Bool}
    (h : ∀ x t, p = x.party → ¬(f t = true ∧ (s.tile t).hold ≤ 1 ∧ s.touches x t = true)) : s.occupiedTile p f = none := by
  unfold State.occupiedTile
  cases hp : p.arm with
  | none => rfl
  | some x =>
    refine firstTile_eq_none_iff.mpr fun ⟨t, ht⟩ => h x t (Party.eq_party_of_arm hp) ?_
    simpa [TileRecord.lastHold, and_assoc] using ht

section ReleaseOrdinary

variable {s : State} {p : Party} {k : SlotNo} {r : Rect}

theorem releaseOrdinary_of_occupied (h : (s.slot p k).heldRect = some r) {t : Tile}
    (hoccupied : s.occupiedTile p r.contains = some t) : releaseOrdinary p k s = (s, ⟨.occupied, false, .tile t⟩) := by
  unfold releaseOrdinary
  cases hc : s.slot p k with
  | empty => rw [hc] at h; cases h
  | pending q w l => rw [hc] at h; cases h
  | held q l | draining q l =>
    rw [hc] at h
    obtain rfl := Option.some.inj h
    simp [hoccupied]

theorem releaseOrdinary_of_clear (h : (s.slot p k).heldRect = some r) (hclear : s.occupiedTile p r.contains = none) :
    releaseOrdinary p k s =
      ((s.releaseSlot p k).1.grantScan, ⟨.done, false, .released k.val (s.slot p k).state (s.releaseSlot p k).2⟩) := by
  unfold releaseOrdinary
  cases hc : s.slot p k with
  | empty => rw [hc] at h; cases h
  | pending q w l => rw [hc] at h; cases h
  | held q l | draining q l =>
    rw [hc] at h
    obtain rfl := Option.some.inj h
    simp [hclear]

end ReleaseOrdinary

section ReleaseTrip

variable {s : State} {x : Arm}

theorem releaseTripRequest_of_occupied (h : s.tripTiles x ≠ []) {t : Tile}
    (hoccupied : s.occupiedTile x.party (s.inTrip x) = some t) :
    releaseTripRequest x s = (s, ⟨.occupied, false, .tile t⟩) := by
  rw [releaseTripRequest, if_neg h, hoccupied]

theorem releaseTripRequest_of_clear (h : s.tripTiles x ≠ []) (hclear : s.occupiedTile x.party (s.inTrip x) = none) :
    releaseTripRequest x s = ((s.releaseTrip x).1.grantScan, ⟨.done, false, .released 4 .held (s.releaseTrip x).2⟩) := by
  rw [releaseTripRequest, if_neg h, hclear]

end ReleaseTrip

theorem releaseRequest_ordinary {s : State} {p : Party} {b : Byte} {k : SlotNo} (hmode : s.mode ≠ .setup)
    (hk : b.toNat = k.val) : releaseRequest p b s = releaseOrdinary p k s := by
  rw [releaseRequest, if_neg hmode, slotOfByte_of_toNat_eq hk]

theorem releaseRequest_trip {s : State} {x : Arm} {b : Byte} (hmode : s.mode ≠ .setup) (hb : b.toNat = 4) :
    releaseRequest x.party b s = releaseTripRequest x s := by
  rw [releaseRequest, if_neg hmode, slotOfByte_of_four_le hb.ge, Arm.arm_party]
  exact if_pos hb

theorem releaseRequest_no_slot {s : State} {p : Party} {b : Byte} (hmode : s.mode ≠ .setup)
    (hb : 4 < b.toNat ∨ b.toNat = 4 ∧ p = .C) : releaseRequest p b s = (s, ⟨.noSuchClaim, false, .empty⟩) := by
  have hfour : 4 ≤ b.toNat := by omega
  rw [releaseRequest, if_neg hmode, slotOfByte_of_four_le hfour]
  cases p with
  | C => rfl
  | A | B => exact if_neg (by simp at hb; omega)

/-- Settles O44, by the slot that the request names. -/
theorem releaseByCondition : Obligations.ReleaseByCondition := by
  unfold Obligations.ReleaseByCondition
  intro p tag rep slot s htaken hmode s1 answers occupied
  have hmode1 : s1.mode ≠ .setup := (s.afterReport_mode p rep).symm ▸ hmode
  have hanswer {u : State} {a : Answer} (h : releaseRequest p slot s1 = (u, a)) : answers u a := by
    have hexec := exec_release p tag rep slot htaken
    rw [show releaseRequest p slot (s.afterReport p rep) = (u, a) from h] at hexec
    exact hexec
  refine ⟨fun h => hanswer (releaseRequest_no_slot hmode1 h), fun k hk => ?_, fun x hslot hx => ?_⟩
  · have hordinary {u : State} {a : Answer} (h : releaseOrdinary p k s1 = (u, a)) : answers u a :=
      hanswer ((releaseRequest_ordinary hmode1 hk).trans h)
    refine ⟨fun hempty => hordinary ?_, fun hpending => hordinary ?_, fun r hheld => ⟨fun x t hx ht => hordinary ?_,
      fun hclear => hordinary ?_⟩⟩
    · rw [releaseOrdinary, hempty]
      rfl
    · rw [releaseOrdinary]
      cases hc : s1.slot p k with
      | pending q w l => rfl
      | empty | held q l | draining q l => rw [hc] at hpending; cases hpending
    · subst hx
      exact releaseOrdinary_of_occupied hheld (State.occupiedTile_eq_some_iff.mpr ht)
    · exact releaseOrdinary_of_clear hheld (State.occupiedTile_eq_none hclear)
  · subst hx
    have htrip {u : State} {a : Answer} (h : releaseTripRequest x s1 = (u, a)) : answers u a :=
      hanswer ((releaseRequest_trip hmode1 hslot).trans h)
    refine ⟨fun hempty => htrip ?_, fun hheld => ⟨fun t ht => htrip ?_, fun hclear => htrip ?_⟩⟩
    · rw [releaseTripRequest, if_pos hempty]
      rfl
    · exact releaseTripRequest_of_occupied hheld (State.occupiedTile_eq_some_iff.mpr ht)
    · refine releaseTripRequest_of_clear hheld (State.occupiedTile_eq_none fun y t hy => ?_)
      obtain rfl := Arm.party_injective hy
      exact hclear t

/-! ### The timers of a waiting claim (R92, R93) -/

theorem State.ownsIn_congr {s t : State} (h : ∀ z, (t.tile z).owner = (s.tile z).owner) (y : Party) (r : Rect) :
    t.ownsIn y r = s.ownsIn y r := by
  simp only [State.ownsIn, h]

theorem port_raiseYield (s : State) (p y : Party) (k : SlotNo) (r : Rect) :
    (s.raiseYield p k r).port y =
      if y ≠ p ∧ s.ownsIn y r = true then (s.port y).raise (.yield p k) else s.port y := by
  have hstep (u : State) (z : Party) : (if z ≠ p ∧ s.ownsIn z r = true then u.raise z (.yield p k) else u).port y =
      if z = y ∧ z ≠ p ∧ s.ownsIn z r = true then (u.port y).raise (.yield p k) else u.port y := by
    by_cases hz : z = y
    · subst hz
      simp only [true_and, apply_ite (fun u : State => u.port z), State.port_raise]
    · have hleft : (u.raise z (.yield p k)).port y = u.port y := State.port_raise_of_ne u _ (Ne.symm hz)
      simp only [hz, false_and, if_false, apply_ite (fun v : State => v.port y), hleft, ite_self]
  simp only [State.raiseYield, parties, List.foldl_cons, List.foldl_nil, hstep]
  cases y <;> simp

theorem raiseYield_frame (s : State) (p : Party) (k : SlotNo) (r : Rect) :
    s.raiseYield p k r = { s with portA := (s.raiseYield p k r).portA, portB := (s.raiseYield p k r).portB,
                                  portC := (s.raiseYield p k r).portC } := by
  have hstep (u v : State) (z : Party) (h : u = { v with portA := u.portA, portB := u.portB, portC := u.portC }) :
      let w := if z ≠ p ∧ s.ownsIn z r = true then u.raise z (.yield p k) else u
      w = { v with portA := w.portA, portB := w.portB, portC := w.portC } := by
    dsimp only
    split_ifs
    · rw [h]
      cases z <;> rfl
    · exact h
  exact hstep _ s .C (hstep _ s .B (hstep s s .A rfl))

/-- Settles O47, by the flag of the claim; of YIELD_TIME every port is given. -/
theorem waitTimers : Obligations.WaitTimers := by
  unfold Obligations.WaitTimers
  intro p k s r w l hslot
  have hlimit : exec (.waitLimitExpiry p k) s = execWaitLimitExpiry p k s := rfl
  have hyield : exec (.yieldTime p k) s = execYieldTime p k s := rfl
  rw [hlimit, hyield, execWaitLimitExpiry, execYieldTime, hslot]
  refine ⟨fun hzero => if_pos hzero, fun hpos => if_neg hpos.ne', fun hasked => if_pos hasked, fun hasked => ?_⟩
  set w1 : Waiting := ⟨w.arrival, max w.age (s.params.yieldPatience * 1000), true⟩ with hw1
  set u := s.setSlot p k (.pending r w1 l) with hu
  have howns (y : Party) : u.ownsIn y r = true ↔ ∃ z, r.contains z = true ∧ (s.tile z).owner = some y := by
    rw [State.ownsIn_congr (fun z => congrArg TileRecord.owner (s.tile_setSlot p k _ z)) y r, State.ownsIn_iff]
  refine ⟨u.raiseYield p k r, w1.age, if_neg (by simp [hasked]), by rw [hw1, Nat.mul_comm], ?_, fun y hy hown => ?_,
    fun y hy => ?_, ?_⟩
  · rw [raiseYield_frame]
  · rw [port_raiseYield, if_pos ⟨hy, (howns y).mpr hown⟩, hu, State.port_setSlot]
  · rw [port_raiseYield, if_neg fun h => hy.elim h.1 fun hno => hno ((howns y).mp h.2), hu, State.port_setSlot]
  · calc u.raiseYield p k r = { u with portA := (u.raiseYield p k r).portA, portB := (u.raiseYield p k r).portB,
                                       portC := (u.raiseYield p k r).portC } := raiseYield_frame u p k r
      _ = { s with claims := u.claims, portA := (u.raiseYield p k r).portA, portB := (u.raiseYield p k r).portB,
                   portC := (u.raiseYield p k r).portC } := rfl
      _ = _ := by rw [show u.claims = (u.raiseYield p k r).claims by rw [raiseYield_frame]]

end Sys2Proof.Machine
end

section
/-! SUPPORT. The requests to the Tile Map: WRITE_ROW (R8 to R11), BLOCK (R13, R14, R94) and UNBLOCK (R17). -/

namespace Sys2Proof.Machine

open Sys2Proof

/-! ### UNBLOCK -/

theorem unblockRequest_of_not_inside {c0 c1 r0 r1 : Byte} {s : State} (hmode : s.mode = .guarding)
    (h : ¬s.params.Inside c0 c1 r0 r1) : unblockRequest c0 c1 r0 r1 s = (s, ⟨.badRect, false, .empty⟩) := by
  rw [unblockRequest, if_neg (not_not.mpr hmode), Params.rect_of_not_inside h]
  rfl

theorem blockRequest_of_not_inside {c0 c1 r0 r1 : Byte} {s : State} (hmode : s.mode = .guarding)
    (h : ¬s.params.Inside c0 c1 r0 r1) : blockRequest c0 c1 r0 r1 s = (s, ⟨.badRect, false, .empty⟩) := by
  rw [blockRequest, if_neg (not_not.mpr hmode), Params.rect_of_not_inside h]
  rfl

/-- The tiles that an UNBLOCK reopens, before its grant scan. -/
def State.reopened (s : State) (r : Rect) : State :=
  { s with tiles := s.tiles.update fun t q => if r.contains t then { q with service := .opened } else q }

theorem unblockRequest_of_inside {c0 c1 r0 r1 : Byte} {s : State} (hmode : s.mode = .guarding)
    (h : s.params.Inside c0 c1 r0 r1) :
    let r := Rect.ofCorners c0 c1 r0 r1
    unblockRequest c0 c1 r0 r1 s =
      (((s.reopened r).lowerClosing (countTiles fun t => r.contains t && (s.tile t).service == .closing)).grantScan,
        ⟨.done, exchanged c0 c1 r0 r1, .unblocked (countTiles fun t => r.contains t && (s.tile t).service != .opened)⟩) := by
  rw [unblockRequest, if_neg (not_not.mpr hmode), Params.rect_of_inside h]
  rfl

theorem countTiles_not_opened (s : State) (r : Rect) :
    (countTiles fun t => r.contains t && (s.tile t).service != .opened) =
      (countTiles fun t => r.contains t && (s.tile t).service == .closing) +
        countTiles fun t => r.contains t && (s.tile t).service == .blocked := by
  rw [countTiles_split _ fun t => (s.tile t).service == .closing]
  congr 1
  all_goals
    refine congrArg countTiles (funext fun t => ?_)
    cases r.contains t <;> cases (s.tile t).service <;> rfl

/-- Settles O50: the tiles are reopened, the count is lowered, and the scan follows. -/
theorem unblockReturnsTiles : Obligations.UnblockReturnsTiles := by
  unfold Obligations.UnblockReturnsTiles
  intro tag c0 c1 r0 r1 s htaken hmode r
  have hexec := exec_unblock tag c0 c1 r0 r1 htaken
  refine ⟨fun h => ?_, fun h => ?_⟩
  · rw [unblockRequest_of_not_inside hmode h] at hexec
    exact hexec
  · intro n
    rw [unblockRequest_of_inside hmode h, countTiles_not_opened] at hexec
    refine ⟨(s.reopened r).lowerClosing n, hexec, fun t => ?_, ?_, ?_, ?_⟩
    · rw [tile_lowerClosing]
      exact TileMap.get_update ..
    all_goals rw [State.lowerClosing_eq]
    · rfl
    · rfl
    · rfl

/-! ### The withdrawals of a BLOCK (R94) -/

section Withdrawals

variable {f : Tile → Bool} {s : State}

theorem State.meets_iff {w : Waiter} {n : ClaimName} (hw : s.waiter n = some w) :
    s.meets f n = true ↔ ∃ t, w.rect.contains t = true ∧ f t = true := by
  rw [State.meets, hw, Option.any_some, firstTile_isSome]
  simp

theorem withdrawOver_of_meets {n : ClaimName} {w : Waiter} {t : Tile} (hw : s.waiter n = some w)
    (ht : (firstTile fun z => w.rect.contains z && f z) = some t) :
    withdrawOver f s n = (s.removePending n).raise n.party (.withdrawn n.slot t) := by
  simp only [withdrawOver, hw, ht]

theorem withdrawOver_of_not_meets {n : ClaimName} (h : s.meets f n = false) : withdrawOver f s n = s := by
  unfold withdrawOver
  split
  · rfl
  · rename_i w hw
    split
    · rfl
    · rename_i t ht
      exact absurd ((State.meets_iff hw).mpr ⟨t, by simpa using firstTile_some ht⟩) (by simp [h])

theorem exists_firstTile_of_meets {n : ClaimName} (h : s.meets f n = true) :
    ∃ w t, s.waiter n = some w ∧ (firstTile fun z => w.rect.contains z && f z) = some t := by
  unfold State.meets at h
  cases hw : s.waiter n with
  | none => rw [hw] at h; cases h
  | some w =>
    rw [hw] at h
    obtain ⟨t, ht⟩ := Option.isSome_iff_exists.mp h
    exact ⟨w, t, rfl, ht⟩

theorem waiter_withdrawOver_of_ne {m n : ClaimName} (h : n ≠ m) : (withdrawOver f s m).waiter n = s.waiter n := by
  have hslot := State.slot_withdrawOver f s m n.party n.slot
  rw [if_neg fun he => h he.1.symm] at hslot
  simp only [State.waiter, hslot]

theorem meets_withdrawOver_of_ne {m n : ClaimName} (h : n ≠ m) : (withdrawOver f s m).meets f n = s.meets f n := by
  simp only [State.meets, waiter_withdrawOver_of_ne h]

theorem queue_withdrawOver (f : Tile → Bool) (s : State) (n : ClaimName) :
    (withdrawOver f s n).queue = s.queue.filter fun m => !(decide (m = n) && s.meets f m) := by
  by_cases hmeets : s.meets f n = true
  · obtain ⟨w, t, hw, ht⟩ := exists_firstTile_of_meets hmeets
    rw [withdrawOver_of_meets hw ht, State.queue_raise, State.queue_removePending]
    refine List.filter_congr fun m _ => ?_
    by_cases hm : m = n
    · simp [hm, hmeets]
    · simp [hm]
  · rw [withdrawOver_of_not_meets (by simpa using hmeets), List.filter_eq_self.mpr]
    intro m _
    by_cases hm : m = n
    · simp [hm, hmeets]
    · simp [hm]

/-- A walk of withdrawals takes from the queue the entries that it meets. -/
theorem queue_withdrawAll (f : Tile → Bool) (l : List ClaimName) (s : State) :
    (l.foldl (withdrawOver f) s).queue = s.queue.filter fun m => !(decide (m ∈ l) && s.meets f m) := by
  induction l generalizing s with
  | nil => simp
  | cons n l ih =>
    rw [List.foldl_cons, ih, queue_withdrawOver, List.filter_filter]
    refine List.filter_congr fun m _ => ?_
    by_cases hm : m = n
    · subst hm
      cases hmeets : s.meets f m with
      | false => simp [withdrawOver_of_not_meets hmeets, hmeets]
      | true => simp
    · simp [hm, meets_withdrawOver_of_ne hm]

theorem port_withdrawAll_of_party {l : List ClaimName} {p : Party} (s : State)
    (h : ∀ n ∈ l, n.party = p → s.meets f n = false) : (l.foldl (withdrawOver f) s).port p = s.port p := by
  induction l generalizing s with
  | nil => rfl
  | cons n l ih =>
    have hport : (withdrawOver f s n).port p = s.port p := by
      cases hmeets : s.meets f n with
      | false => rw [withdrawOver_of_not_meets hmeets]
      | true =>
        obtain ⟨w, t, hw, ht⟩ := exists_firstTile_of_meets hmeets
        have hp : p ≠ n.party := fun hp => by simp [h n (List.mem_cons_self ..) hp.symm] at hmeets
        rw [withdrawOver_of_meets hw ht, State.port_raise_of_ne _ _ hp, port_removePending]
    rw [List.foldl_cons, ih, hport]
    intro m hm hp
    by_cases hmn : m = n
    · subst hmn
      have hmeets := h m (List.mem_cons_self ..) hp
      rw [withdrawOver_of_not_meets hmeets, hmeets]
    · rw [meets_withdrawOver_of_ne hmn, h m (List.mem_cons_of_mem _ hm) hp]

/-- Of a party with one entry in the walk, the withdrawal of that entry raises WITHDRAWN. -/
theorem port_withdrawAll_of_meets {l : List ClaimName} (hnodup : (l.map ClaimName.party).Nodup) (s : State) {n : ClaimName}
    (hn : n ∈ l) {w : Waiter} {t : Tile} (hw : s.waiter n = some w)
    (ht : (firstTile fun z => w.rect.contains z && f z) = some t) :
    (l.foldl (withdrawOver f) s).port n.party = (s.port n.party).raise (.withdrawn n.slot t) := by
  induction l generalizing s with
  | nil => cases hn
  | cons m l ih =>
    obtain ⟨hm, hnodup⟩ := List.nodup_cons.mp hnodup
    rw [List.foldl_cons]
    obtain rfl | hl := List.mem_cons.mp hn
    · rw [port_withdrawAll_of_party, withdrawOver_of_meets hw ht, State.port_raise, port_removePending]
      exact fun k hk hp => absurd (List.mem_map.mpr ⟨k, hk, hp⟩) hm
    · have hparty : n.party ≠ m.party := fun hp => hm (List.mem_map.mpr ⟨n, hl, hp⟩)
      have hne : n ≠ m := fun he => hparty (congrArg ClaimName.party he)
      rw [ih hnodup _ hl ((waiter_withdrawOver_of_ne hne).trans hw)]
      congr 1
      refine port_withdrawAll_of_party (l := [m]) s fun k hk hp => ?_
      obtain rfl := List.mem_singleton.mp hk
      exact absurd hp.symm hparty

theorem tripTiles_withdrawAll (f : Tile → Bool) (l : List ClaimName) (s : State) (x : Arm) :
    (l.foldl (withdrawOver f) s).tripTiles x = s.tripTiles x := by
  refine foldl_keeps (fun u : State => u.tripTiles x) (withdrawOver f) (fun u n => ?_) l s
  unfold withdrawOver
  split
  · rfl
  · split
    · rfl
    · simp [State.removePending]

theorem withdrawAll_eq (f : Tile → Bool) (l : List ClaimName) (s : State) :
    let u := l.foldl (withdrawOver f) s
    u = { s with claims := u.claims, queue := u.queue, portA := u.portA, portB := u.portB, portC := u.portC } := by
  obtain ⟨hheld, hpin, hmode, hepoch, hlevel, hparams, htiles, hclosing, hA, hB, hfree, hpending⟩ := withdrawAll_frame f l s
  generalize l.foldl (withdrawOver f) s = u at *
  obtain ⟨held, pin, mode, epoch, level, params, tiles, closing, claims, queue, a, b, pa, pb, pc, free, pending⟩ := u
  dsimp only at *
  subst hheld hpin hmode hepoch hlevel hparams htiles hclosing hA hB hfree hpending
  rfl

end Withdrawals

/-! ### BLOCK (R13, R14) -/

theorem TileRecord.block_eq (q : TileRecord) : q.block =
    if q.service = .opened then { q with service := if q.owner.isSome = true then .closing else .blocked } else q := by
  unfold TileRecord.block TileRecord.blocksToClosing TileRecord.blocksToBlocked
  cases hs : q.service <;> cases ho : q.owner <;> simp

/-- The tiles that a BLOCK of a rectangle takes out, which are the OPEN ones. -/
def State.openIn (s : State) (r : Rect) (t : Tile) : Bool := r.contains t && (s.tile t).service == .opened

/-- The state of a BLOCK before its grant scan. -/
def State.blockedOver (s : State) (r : Rect) : State :=
  { s.queue.foldl (withdrawOver (s.openIn r)) s with
    tiles := s.tiles.update fun t q => if r.contains t then q.block else q,
    closing := s.closing + countTiles fun t => s.openIn r t && (s.tile t).owner.isSome }

theorem blockRequest_of_inside {c0 c1 r0 r1 : Byte} {s : State} (hmode : s.mode = .guarding)
    (h : s.params.Inside c0 c1 r0 r1) :
    let r := Rect.ofCorners c0 c1 r0 r1
    let u := s.blockedOver r
    let toClosing := countTiles fun t => s.openIn r t && (s.tile t).owner.isSome
    blockRequest c0 c1 r0 r1 s = (if u.queue.length < s.queue.length then u.grantScan else u,
      ⟨if toClosing = 0 then .done else .closing, exchanged c0 c1 r0 r1,
        .blocked toClosing (countTiles fun t => s.openIn r t && (s.tile t).owner.isNone)⟩) := by
  intro r u toClosing
  have hclosing : (countTiles fun t => r.contains t && (s.tile t).blocksToClosing) = toClosing :=
    congrArg countTiles (funext fun t => (Bool.and_assoc ..).symm)
  have hblocked : (countTiles fun t => r.contains t && (s.tile t).blocksToBlocked) =
      countTiles fun t => s.openIn r t && (s.tile t).owner.isNone :=
    congrArg countTiles (funext fun t => (Bool.and_assoc ..).symm)
  rw [blockRequest, if_neg (not_not.mpr hmode), Params.rect_of_inside h]
  dsimp only
  rw [hclosing, hblocked]
  have hwithdrawn : s.queue.foldl (withdrawOver fun t => r.contains t && (s.tile t).service == .opened)
      { s with tiles := s.tiles.update fun t q => if r.contains t then q.block else q, closing := s.closing + toClosing } = u :=
    withdrawAll_ground ..
  rw [hwithdrawn]

theorem queue_blockedOver (s : State) (r : Rect) :
    (s.blockedOver r).queue = s.queue.filter fun n => !s.meets (s.openIn r) n := by
  refine (queue_withdrawAll (s.openIn r) s.queue s).trans (List.filter_congr fun n hn => ?_)
  simp [hn]

theorem slot_blockedOver (s : State) (r : Rect) (p : Party) (k : SlotNo) : (s.blockedOver r).slot p k =
    if (⟨p, k⟩ : ClaimName) ∈ s.queue ∧ s.meets (s.openIn r) ⟨p, k⟩ = true then .empty else s.slot p k :=
  State.slot_withdrawAll (s.openIn r) s.queue s p k

theorem port_blockedOver (s : State) (r : Rect) (p : Party) :
    (s.blockedOver r).port p = (s.queue.foldl (withdrawOver (s.openIn r)) s).port p := by
  cases p <;> rfl

theorem tile_blockedOver (s : State) (r : Rect) (t : Tile) : (s.blockedOver r).tile t =
    if s.openIn r t = true then
      { s.tile t with service := if (s.tile t).owner.isSome = true then .closing else .blocked }
    else s.tile t := by
  refine (TileMap.get_update ..).trans ?_
  rw [TileRecord.block_eq]
  unfold State.openIn State.tile
  by_cases hr : r.contains t = true <;> simp [hr]

/-- Settles O49: the entries that meet an OPEN tile of the rectangle are withdrawn, one of each party at most. -/
theorem blockTakesTilesOut : Obligations.BlockTakesTilesOut := by
  unfold Obligations.BlockTakesTilesOut
  intro tag c0 c1 r0 r1 s htaken hmode hqueue r opened toClosing toBlocked hit
  have hexec := exec_block tag c0 c1 r0 r1 htaken
  refine ⟨fun h => ?_, fun h => ?_⟩
  · rw [blockRequest_of_not_inside hmode h] at hexec
    exact hexec
  rw [blockRequest_of_inside hmode h] at hexec
  have horder := hqueue.order
  have hmeets {w : Waiter} (hw : w ∈ s.waiters) : s.meets (s.openIn r) w.name = true ↔ hit w :=
    State.meets_iff (State.waiter_eq_some.mpr ⟨rfl, (State.mem_waiters.mp hw).2⟩)
  have hscan : (s.blockedOver r).queue.length < s.queue.length ↔ ∃ w ∈ s.waiters, hit w := by
    rw [queue_blockedOver, List.length_filter_lt_length_iff_exists]
    constructor
    · rintro ⟨n, hn, hmeet⟩
      obtain ⟨w, hw⟩ := horder.waiter_isSome hn
      have hname := (State.waiter_eq_some.mp hw).1
      have hmem : w ∈ s.waiters := List.mem_filterMap.mpr ⟨n, hn, hw⟩
      exact ⟨w, hmem, (hmeets hmem).mp (by simpa [hname] using hmeet)⟩
    · rintro ⟨w, hw, hhit⟩
      exact ⟨w.name, (State.mem_waiters.mp hw).1, by simpa using (hmeets hw).mpr hhit⟩
  refine ⟨s.blockedOver r, _, hexec, fun hany => if_pos (hscan.mpr hany), fun hnone => if_neg fun hlt => hnone (hscan.mp hlt),
    tile_blockedOver s r, rfl, fun w hw hhit => ⟨?_, ?_, fun t ht => ?_⟩, fun p hp => ?_, ?_, fun p k hkept => ?_,
    tripTiles_withdrawAll (s.openIn r) s.queue s, ?_⟩
  · rw [queue_blockedOver, List.mem_filter, (hmeets hw).mpr hhit]
    simp
  · rw [slot_blockedOver, if_pos ⟨(State.mem_waiters.mp hw).1, (hmeets hw).mpr hhit⟩]
  · have hfirst : (firstTile fun z => w.rect.contains z && s.openIn r z) = some t :=
      firstTile_eq_some_iff.mpr ((isFirst_congr (fun z => by rw [Bool.and_eq_true]; rfl) t).mpr ht)
    rw [port_blockedOver, port_withdrawAll_of_meets hqueue.1 s (State.mem_waiters.mp hw).1
      (State.waiter_eq_some.mpr ⟨rfl, (State.mem_waiters.mp hw).2⟩) hfirst]
    exact mem_insertNotice_self ..
  · rw [port_blockedOver]
    refine port_withdrawAll_of_party s fun n hn hparty => ?_
    obtain ⟨w, hw⟩ := horder.waiter_isSome hn
    have hname := (State.waiter_eq_some.mp hw).1
    have hmem : w ∈ s.waiters := List.mem_filterMap.mpr ⟨n, hn, hw⟩
    rw [← Bool.not_eq_true, ← hname, hmeets hmem]
    exact hp w hmem (hname ▸ hparty)
  · rw [queue_blockedOver]
    refine List.filter_congr fun n hn => ?_
    obtain ⟨w, hw⟩ := horder.waiter_isSome hn
    rw [State.meets, hw, Option.any_some, Option.any_some, Bool.eq_iff_iff, Bool.not_eq_true', ← Bool.not_eq_true,
      firstTile_isSome, List.all_eq_true]
    constructor
    · intro hno t _
      rw [Bool.not_eq_true', ← Bool.not_eq_true]
      exact fun ht => hno ⟨t, ht⟩
    · rintro hall ⟨t, ht⟩
      exact Bool.false_ne_true ((Bool.not_eq_true' _ ▸ hall t (mem_allTiles t)).symm.trans ht)
  · rw [slot_blockedOver, if_neg]
    rintro ⟨hmem, hmeet⟩
    obtain hleft | hnot := hkept
    · rw [queue_blockedOver, List.mem_filter, hmeet] at hleft
      simp at hleft
    · exact hnot ((hqueue.2.1 p k).mp hmem)
  · have heq := withdrawAll_eq (s.openIn r) s.queue s
    exact congrArg (fun v : State => { v with tiles := (s.blockedOver r).tiles, closing := (s.blockedOver r).closing }) heq

end Sys2Proof.Machine
end

section
/-! SUPPORT. WRITE_ROW (R8 to R11): the entries placed, their columns and their counts. -/

namespace Sys2Proof.Machine

open Sys2Proof

/-- An entry that sets service and class: service OPEN or BLOCKED, class 0 to 3 (R11). -/
abbrev EntryValid (e : Byte) : Prop := e.toNat / 16 ≤ 1 ∧ e.toNat % 16 < 4

theorem entry_high (e : Byte) : (e.extractLsb' 4 4).toNat = e.toNat / 16 := by
  have hlt := e.isLt
  rw [BitVec.extractLsb'_toNat, Nat.shiftRight_eq_div_pow]
  omega

theorem entry_low (e : Byte) : (e.extractLsb' 0 4).toNat = e.toNat % 16 := by
  rw [BitVec.extractLsb'_toNat, Nat.shiftRight_zero]

theorem entryValue_of_valid {e : Byte} (h : EntryValid e) :
    entryValue e = some (if e.toNat / 16 = 0 then .opened else .blocked, ⟨e.toNat % 16, h.2⟩) := by
  simp only [entryValue, entry_high, entry_low]
  rw [dif_pos h.2]
  split_ifs with hzero hone
  · rfl
  · rfl
  · exact absurd h.1 (by omega)

theorem entryValue_of_not_valid {e : Byte} (h : ¬EntryValid e) : entryValue e = none := by
  simp only [entryValue, entry_high, entry_low]
  split_ifs
  · exact absurd ⟨by omega, by assumption⟩ h
  · exact absurd ⟨by omega, by assumption⟩ h
  · rfl
  · rfl

theorem entryValue_isSome (e : Byte) : (entryValue e).isSome = decide (EntryValid e) := by
  by_cases h : EntryValid e
  · rw [entryValue_of_valid h, decide_eq_true h]
    rfl
  · rw [entryValue_of_not_valid h, decide_eq_false h]
    rfl

/-! ### The effective entries (R10) -/

section Effective

variable {ncol start : Nat} {entries : List Byte}

theorem length_effectiveEntries : (effectiveEntries ncol start entries).length = min entries.length ncol := by
  simp only [effectiveEntries, List.length_map, List.length_drop, List.length_zipIdx]
  omega

theorem countP_effectiveEntries (f : Byte → Bool) : (effectiveEntries ncol start entries).countP (fun e => f e.2) =
    (entries.drop (entries.length - ncol)).countP f := by
  have hfst : (entries.zipIdx.drop (entries.length - ncol)).map Prod.fst = entries.drop (entries.length - ncol) := by
    rw [List.map_drop, List.zipIdx_map_fst]
  rw [← hfst, effectiveEntries, List.countP_map, List.countP_map]
  rfl

theorem mem_effectiveEntries {c : Nat} {e : Byte} : (c, e) ∈ effectiveEntries ncol start entries ↔
    ∃ i, entries[i]? = some e ∧ entries.length ≤ i + ncol ∧ (start + i) % ncol = c := by
  rw [effectiveEntries, List.mem_map]
  constructor
  · rintro ⟨⟨b, i⟩, hmem, heq⟩
    obtain ⟨j, hj⟩ := List.mem_iff_getElem?.mp hmem
    rw [List.getElem?_drop, List.getElem?_zipIdx, Option.map_eq_some_iff] at hj
    obtain ⟨b', hb, hpair⟩ := hj
    obtain ⟨rfl, hi⟩ := Prod.mk.inj hpair
    obtain ⟨hc, rfl⟩ := Prod.mk.inj heq
    dsimp only at hi hc
    refine ⟨i, ?_, by omega, hc⟩
    rw [← hi, Nat.zero_add]
    exact hb
  · rintro ⟨i, hi, hlen, hc⟩
    refine ⟨(e, i), List.mem_iff_getElem?.mpr ⟨i - (entries.length - ncol), ?_⟩, by rw [hc]⟩
    rw [List.getElem?_drop, show entries.length - ncol + (i - (entries.length - ncol)) = i by omega,
      List.getElem?_zipIdx, hi, Nat.zero_add]
    rfl

/-- Two effective entries of one column are one entry, as there are at most NCOL of them. -/
theorem effective_unique {i j : Nat} (hi : i < entries.length) (hj : j < entries.length)
    (hil : entries.length ≤ i + ncol) (hjl : entries.length ≤ j + ncol) (h : (start + i) % ncol = (start + j) % ncol) : i = j := by
  have hmod : i % ncol = j % ncol := Nat.ModEq.add_left_cancel' start h
  obtain hlt | rfl | hlt := lt_trichotomy i j
  · exact absurd (Nat.le_of_dvd (by omega) ((Nat.modEq_iff_dvd' hlt.le).mp hmod)) (by omega)
  · rfl
  · exact absurd (Nat.le_of_dvd (by omega) ((Nat.modEq_iff_dvd' hlt.le).mp (Eq.symm hmod))) (by omega)

end Effective

theorem writeEntry_of_entry {q : TileRecord} {ncol start c : Nat} {entries : List Byte} {i : Nat} {e : Byte}
    (hi : entries[i]? = some e) (hlen : entries.length ≤ i + ncol) (hc : (start + i) % ncol = c) :
    q.writeEntry (effectiveEntries ncol start entries) c =
      (entryValue e).elim q fun v => { q with service := v.1, speedClass := v.2 } := by
  have hfind : (effectiveEntries ncol start entries).find? (fun d => d.1 == c) = some (c, e) := by
    cases hd : (effectiveEntries ncol start entries).find? fun d => d.1 == c with
    | none => exact absurd (List.find?_eq_none.mp hd (c, e) (mem_effectiveEntries.mpr ⟨i, hi, hlen, hc⟩)) (by simp)
    | some d =>
      obtain ⟨c', e'⟩ := d
      obtain rfl : c' = c := by simpa using List.find?_some hd
      obtain ⟨j, hj, hjlen, hjc⟩ := mem_effectiveEntries.mp (List.mem_of_find?_eq_some hd)
      obtain rfl := effective_unique (List.getElem?_eq_some_iff.mp hi).1 (List.getElem?_eq_some_iff.mp hj).1 hlen hjlen
        (hc.trans hjc.symm)
      rw [Option.some.inj (hj.symm.trans hi)]
  rw [TileRecord.writeEntry, hfind]
  dsimp only
  cases entryValue e <;> rfl

theorem writeEntry_of_no_entry {q : TileRecord} {ncol start c : Nat} {entries : List Byte}
    (h : ∀ i, i < entries.length → entries.length ≤ i + ncol → (start + i) % ncol ≠ c) :
    q.writeEntry (effectiveEntries ncol start entries) c = q := by
  have hfind : (effectiveEntries ncol start entries).find? (fun d => d.1 == c) = none := by
    refine List.find?_eq_none.mpr fun ⟨c', e⟩ hd hc => ?_
    obtain rfl : c' = c := by simpa using hc
    obtain ⟨i, hi, hlen, hcol⟩ := mem_effectiveEntries.mp hd
    exact h i (List.getElem?_eq_some_iff.mp hi).1 hlen hcol
  rw [TileRecord.writeEntry, hfind]

/-! ### The request -/

/-- The state that an accepted WRITE_ROW leaves. -/
def State.rowWritten (s : State) (row start : Byte) (entries : List Byte) : State :=
  { s with tiles := s.tiles.update fun t q =>
      if t.row.val = row.toNat then q.writeEntry (effectiveEntries s.params.ncol start.toNat entries) t.col.val else q }

theorem tile_rowWritten (s : State) (row start : Byte) (entries : List Byte) (t : Tile) :
    (s.rowWritten row start entries).tile t =
      if t.row.val = row.toNat then
        (s.tile t).writeEntry (effectiveEntries s.params.ncol start.toNat entries) t.col.val
      else s.tile t :=
  TileMap.get_update ..

/-- Settles O48: the effective entries address distinct columns, so that each of them is the one that its tile takes. -/
theorem writeRowPlacesEntries : Obligations.WriteRowPlacesEntries := by
  unfold Obligations.WriteRowPlacesEntries
  intro tag row col entries s htaken hmode n ncol valid
  have hexec := exec_writeRow tag row col entries htaken
  rw [writeRowRequest, if_neg (not_not.mpr hmode)] at hexec
  refine ⟨fun hlength => ?_, fun hone hmost hbeyond => ?_, fun hone hmost hrow hcol => ?_⟩
  · rw [if_pos (by omega)] at hexec
    exact hexec
  · rw [if_neg (by omega), if_pos hbeyond] at hexec
    exact hexec
  · rw [if_neg (by omega), if_neg (by omega)] at hexec
    set eff := effectiveEntries s.params.ncol col.toNat entries with heff
    set written := eff.countP fun e => (entryValue e.2).isSome with hwritten
    refine ⟨s.rowWritten row col entries, written, eff.length - written, hexec, ?_, ?_, rfl, fun t i e htrow hi hlen hc => ?_,
      fun t ht => ?_⟩
    · simp only [hwritten, heff, entryValue_isSome]
      exact countP_effectiveEntries fun e => decide (EntryValid e)
    · rw [← length_effectiveEntries (start := col.toNat), Nat.add_sub_cancel' List.countP_le_length]
    · rw [tile_rowWritten, if_pos htrow, writeEntry_of_entry hi hlen hc]
      by_cases hvalid : EntryValid e
      · rw [entryValue_of_valid hvalid]
        exact ⟨rfl, rfl, fun _ => ⟨rfl, rfl⟩, fun hnot => absurd hvalid hnot⟩
      · rw [entryValue_of_not_valid hvalid]
        exact ⟨rfl, rfl, fun hv => absurd hv hvalid, fun _ => rfl⟩
    · rw [tile_rowWritten]
      split_ifs with htrow
      · exact writeEntry_of_no_entry (ht.resolve_left (not_not.mpr htrow))
      · rfl

end Sys2Proof.Machine
end

section
/-! SUPPORT. The reads READ_TRIP, READ_ARM, READ_CLAIMS and READ_QUEUE (R79, R101, R143, R167). -/

namespace Sys2Proof.Machine

open Sys2Proof

/-! ### The codes of arms and parties (R166) -/

theorem armOfCode_of_two_le {b : Byte} (h : 2 ≤ b.toNat) : armOfCode b = none := by
  obtain ⟨n, hn⟩ := Nat.exists_eq_add_of_le' h
  rw [armOfCode, hn]
  rfl

theorem armOfCode_A {b : Byte} (h : b.toNat = 0) : armOfCode b = some .A := by
  rw [armOfCode, h]
  rfl

theorem armOfCode_B {b : Byte} (h : b.toNat = 1) : armOfCode b = some .B := by
  rw [armOfCode, h]
  rfl

theorem partyOfCode_of_three_le {b : Byte} (h : 3 ≤ b.toNat) : partyOfCode b = none := by
  obtain ⟨n, hn⟩ := Nat.exists_eq_add_of_le' h
  rw [partyOfCode, hn]
  rfl

/-! ### The smallest rectangle of a set of tiles (R79) -/

/-- A rectangle that contains a list of tiles and reaches one of them with each of its sides. -/
structure Rect.Bounds (r : Rect) (ts : List Tile) : Prop where
  contains : ∀ t ∈ ts, r.contains t = true
  west : ∃ t ∈ ts, t.col.val = r.col0
  east : ∃ t ∈ ts, t.col.val = r.col1
  south : ∃ t ∈ ts, t.row.val = r.row0
  north : ∃ t ∈ ts, t.row.val = r.row1

/-- The smallest rectangle that contains a rectangle and a tile. -/
def Rect.grow (r : Rect) (u : Tile) : Rect :=
  ⟨min r.col0 u.col.val, max r.col1 u.col.val, min r.row0 u.row.val, max r.row1 u.row.val⟩

theorem Rect.contains_iff (r : Rect) (t : Tile) : r.contains t = true ↔
    r.col0 ≤ t.col.val ∧ t.col.val ≤ r.col1 ∧ r.row0 ≤ t.row.val ∧ t.row.val ≤ r.row1 := by
  simp [Rect.contains, and_assoc]

/-- A side that moves at most to the new tile reaches an old tile or the new one. -/
theorem exists_mem_append_of_side {ts : List Tile} {u : Tile} {f : Tile → Nat} {m n : Nat} (h : ∃ t ∈ ts, f t = m)
    (hn : n = m ∨ n = f u) : ∃ t ∈ ts ++ [u], f t = n := by
  obtain rfl | rfl := hn
  · obtain ⟨t, ht, hm⟩ := h
    exact ⟨t, List.mem_append_left _ ht, hm⟩
  · exact ⟨u, by simp, rfl⟩

theorem Rect.Bounds.grow {r : Rect} {ts : List Tile} (h : r.Bounds ts) (u : Tile) : (r.grow u).Bounds (ts ++ [u]) := by
  refine ⟨fun t ht => ?_, exists_mem_append_of_side h.west ?_, exists_mem_append_of_side h.east ?_,
    exists_mem_append_of_side h.south ?_, exists_mem_append_of_side h.north ?_⟩
  · rw [Rect.contains_iff]
    dsimp only [Rect.grow]
    obtain ht | ht := List.mem_append.mp ht
    · have := (r.contains_iff t).mp (h.contains t ht)
      omega
    · obtain rfl := List.mem_singleton.mp ht
      omega
  all_goals
    dsimp only [Rect.grow]
    omega

theorem Rect.Bounds.foldl {r : Rect} {ts : List Tile} (h : r.Bounds ts) (us : List Tile) :
    (us.foldl Rect.grow r).Bounds (ts ++ us) := by
  induction us generalizing r ts with
  | nil => simpa using h
  | cons u us ih => simpa using ih (h.grow u)

theorem boundingRect_bounds (t : Tile) (ts : List Tile) : (boundingRect (t :: ts)).Bounds (t :: ts) := by
  have hone : (⟨t.col.val, t.col.val, t.row.val, t.row.val⟩ : Rect).Bounds [t] :=
    ⟨fun u hu => by obtain rfl := List.mem_singleton.mp hu; simp [Rect.contains_iff], ⟨t, by simp, rfl⟩, ⟨t, by simp, rfl⟩,
      ⟨t, by simp, rfl⟩, ⟨t, by simp, rfl⟩⟩
  exact hone.foldl ts

/-! ### The views of the slots -/

theorem getElem?_map_slotNos {α : Type} (f : SlotNo → α) (l : List α) (k : SlotNo) :
    (slotNos.map f ++ l)[k.val]? = some (f k) := by
  fin_cases k <;> rfl

theorem getElem?_viewClaims_trip (s : State) (x : Arm) : (s.viewClaims x.party)[4]? = some (s.viewTrip x) := by
  cases x <;> rfl

theorem length_viewClaims (s : State) (p : Party) : (s.viewClaims p).length = if p = .C then 4 else 5 := by
  cases p <;> rfl

/-- READ_CLAIMS gives the slots of party `p` of state `s` (R79). -/
theorem readClaims_views (s : State) (p : Party) :
    (s.viewClaims p).length = (if p = .C then 4 else 5) ∧
    (∀ k : SlotNo, ∃ v, (s.viewClaims p)[k.val]? = some v ∧ v.state = (s.slot p k).state ∧ v.rect = (s.slot p k).rect ∧
      v.link = (s.slot p k).link ∧ v.tiles = none ∧
      v.trip = (if (s.slot p k).state = .empty then none else some false) ∧
      (∀ r w l, s.slot p k = .pending r w l →
        v.position = some (s.queue.idxOf ⟨p, k⟩ + 1) ∧ v.waitAge = some (min (w.age / 1000) 65535) ∧
        v.asked = some w.asked) ∧
      ((s.slot p k).state ≠ .pending → v.position = none ∧ v.waitAge = none ∧ v.asked = none)) ∧
    ∀ x, p = x.party → ∃ v, (s.viewClaims p)[4]? = some v ∧
      (s.tripTiles x = [] → v.state = .empty ∧ v.tiles = none) ∧
      (s.tripTiles x ≠ [] →
        ∃ r, v.state = .held ∧ v.trip = some true ∧ v.tiles = some ((s.tripTiles x).length, r) ∧
          (∀ t ∈ s.tripTiles x, r.contains t = true) ∧
          (∃ t ∈ s.tripTiles x, t.col.val = r.col0) ∧ (∃ t ∈ s.tripTiles x, t.col.val = r.col1) ∧
          (∃ t ∈ s.tripTiles x, t.row.val = r.row0) ∧ ∃ t ∈ s.tripTiles x, t.row.val = r.row1) := by
  refine ⟨length_viewClaims s p, fun k => ⟨s.viewSlot p k, getElem?_map_slotNos _ _ k, ?_⟩, fun x hx => ?_⟩
  · unfold State.viewSlot
    cases s.slot p k with
    | pending r w l =>
      refine ⟨rfl, rfl, rfl, rfl, rfl, fun r' w' l' h => ?_, fun h => absurd rfl h⟩
      cases h
      exact ⟨rfl, rfl, rfl⟩
    | empty | held r l | draining r t => exact ⟨rfl, rfl, rfl, rfl, rfl, nofun, fun _ => ⟨rfl, rfl, rfl⟩⟩
  · subst hx
    refine ⟨s.viewTrip x, getElem?_viewClaims_trip s x, fun h => ?_, fun h => ?_⟩
    · rw [State.viewTrip, h]
      exact ⟨rfl, rfl⟩
    · obtain ⟨t, ts, hts⟩ := List.exists_cons_of_ne_nil h
      rw [State.viewTrip, hts]
      have hbounds := boundingRect_bounds t ts
      exact ⟨_, rfl, rfl, rfl, hbounds.contains, hbounds.west, hbounds.east, hbounds.south, hbounds.north⟩

/-- Settles O52: each read answers the views of the model, taken after the report of the request. -/
theorem readsOfArmsAndClaims : Obligations.ReadsOfArmsAndClaims := by
  unfold Obligations.ReadsOfArmsAndClaims
  refine ⟨?_, fun tag arm s htaken => ?_, fun tag arm s htaken => ?_, fun tag party s htaken => ?_, fun tag s htaken => ?_⟩
  · intro x tag rep arm s htaken s1
    rw [exec_readTrip x.party tag rep arm htaken]
    cases x <;> rfl
  · have hexec := exec_readTrip .C tag none (some arm) htaken
    rw [State.afterReport_C] at hexec
    refine ⟨fun h => ?_, fun h => ?_, fun h => ?_⟩
    · rw [readTripRequest, Option.bind_some, armOfCode_of_two_le h] at hexec
      exact hexec
    · rw [readTripRequest, Option.bind_some, armOfCode_A h] at hexec
      exact hexec
    · rw [readTripRequest, Option.bind_some, armOfCode_B h] at hexec
      exact hexec
  · have hexec := exec_readArm tag arm htaken
    refine ⟨fun h => ?_, fun x h => ?_⟩
    · rw [readArmRequest, armOfCode_of_two_le h] at hexec
      exact hexec
    · have hx : armOfCode arm = some x := by
        cases x
        · exact armOfCode_A h
        · exact armOfCode_B h
      rw [readArmRequest, hx] at hexec
      exact hexec
  · have hexec := exec_readClaims tag party htaken
    refine ⟨fun h => ?_, fun p h => ?_⟩
    · rw [readClaimsRequest, partyOfCode_of_three_le h] at hexec
      exact hexec
    · have hp : partyOfCode party = some p := by
        rw [partyOfCode, h]
        cases p <;> rfl
      rw [readClaimsRequest, hp] at hexec
      exact ⟨s.viewClaims p, hexec, readClaims_views s p⟩
  · refine ⟨s.waiters.map s.viewWaiter, exec_readQueue tag htaken, by simp, fun i w hw => ?_⟩
    refine ⟨s.viewWaiter w, by rw [List.getElem?_map, hw]; rfl, rfl, rfl, rfl, rfl, rfl, fun y => ?_⟩
    exact State.waitsOn_iff_claimWaits

end Sys2Proof.Machine
end

section
/-! SUPPORT. What a command reaches of an arm's blocks, and that a permit rises on a clean report alone (R118, R122). -/

namespace Sys2Proof.Machine

open Sys2Proof

/-! ### An arm that another arm's events reach -/

/-- The blocks of an arm are left, or the arm trips. -/
def ArmUnit.LeftOrTripped (u v : ArmUnit) : Prop := v = u ∨ u.TrippedTo v

namespace ArmUnit.LeftOrTripped

variable {u v : ArmUnit}

theorem parts (h : u.LeftOrTripped v) : v.monitor = u.monitor ∧ v.evaluation = u.evaluation := by
  obtain rfl | h := h
  · exact ⟨rfl, rfl⟩
  · exact ⟨h.monitor, h.evaluation⟩

theorem permit (h : u.LeftOrTripped v) (hv : v.guard.permit = true) : u.guard.permit = true := by
  obtain rfl | h := h
  · exact hv
  · rw [h.permit] at hv; cases hv

end ArmUnit.LeftOrTripped

theorem State.arm_guardActs_other (s : State) (x : Arm) (e : Evaluation) (st : Start) :
    (s.arm x.other).LeftOrTripped ((s.guardActs x e st).arm x.other) := by
  have htrip (c : Cause) : (s.arm x.other).LeftOrTripped ((s.tripOwn x c).arm x.other) :=
    (s.arm_tripOwn_other x c).imp_right And.right
  unfold State.guardActs
  split
  · exact .inl rfl
  · split
    · exact .inl (State.arm_countClean_of_ne _ _ (Arm.other_ne x))
    · exact .inl rfl
  · split
    · exact htrip _
    · split
      · exact htrip _
      · exact .inl rfl
  · split
    · exact .inl (State.arm_setGuard_of_ne _ _ (Arm.other_ne x))
    · exact .inl rfl

theorem State.arm_evaluateReport_other (s : State) (x : Arm) (rep : Report) (m : Nat) (st : Start) :
    (s.arm x.other).LeftOrTripped ((s.evaluateReport x rep m st).arm x.other) := by
  cases he : s.evaluate x rep m with
  | none =>
    rw [State.evaluateReport_of_none he]
    split
    · exact (s.arm_tripOwn_other x _).imp_right And.right
    · exact .inl rfl
  | some e =>
    rw [State.evaluateReport_of_evaluate he, State.arm_handOff]
    have hsame : (s.setEvaluation x (some e)).arm x.other = s.arm x.other :=
      State.arm_setEvaluation_of_ne _ _ (Arm.other_ne x)
    exact hsame ▸ State.arm_guardActs_other (s.setEvaluation x (some e)) x e st

theorem State.arm_armReport_other (s : State) (x : Arm) (rep : Report) :
    (s.arm x.other).LeftOrTripped ((s.armReport x rep).arm x.other) := by
  have hmonitor (m : Monitor) : (s.setMonitor x m).arm x.other = s.arm x.other :=
    State.arm_setMonitor_of_ne _ _ (Arm.other_ne x)
  obtain h | ⟨why, h⟩ | h := s.armReport_cases x rep
  · rw [h]; exact .inl rfl
  · rw [h, State.arm_raise]; exact .inl rfl
  · rw [h]
    unfold State.freshReport
    dsimp only
    split
    · exact .inl (hmonitor _)
    · rw [← hmonitor]; exact State.arm_evaluateReport_other _ x rep 0 .fresh

theorem State.arm_periodExpiry_other (s : State) (x : Arm) :
    (s.arm x.other).LeftOrTripped ((s.periodExpiry x).arm x.other) := by
  have harming (u : State) : (u.expiryInArming x).arm x.other = u.arm x.other := by
    unfold State.expiryInArming
    split
    · exact State.arm_setGuard_of_ne _ _ (Arm.other_ne x)
    · rfl
  have hbefore (m : Monitor) : ((s.setMonitor x m).expiryInArming x).arm x.other = s.arm x.other :=
    (harming _).trans (State.arm_setMonitor_of_ne _ _ (Arm.other_ne x))
  unfold State.periodExpiry State.evaluateLast State.staleExpiry
  dsimp only
  rw [← hbefore]
  split
  · split
    · exact .inl rfl
    · exact State.arm_evaluateReport_other ..
  · split
    · split
      · split
        · exact (State.arm_tripOwn_other ..).imp_right And.right
        · exact State.arm_evaluateReport_other ..
      · exact .inl rfl
    · exact .inl rfl

/-! ### The permit of the arm itself (R122) -/

/-- The guard acts on its arm's evaluation: a permit that is on was on before, unless an ARMING arm becomes LIVE on a CLEAR
evaluation of a fresh report. -/
theorem State.permit_guardActs {s : State} {x : Arm} {e : Evaluation} {st : Start}
    (h : ((s.guardActs x e st).arm x).guard.permit = true) : (s.arm x).guard.permit = true ∨
      st = .fresh ∧ s.guardState x = .arming ∧ e.result = none ∧ ((s.guardActs x e st).arm x).guard.state = .live := by
  have htrip (c : Cause) : ((s.tripOwn x c).arm x).guard.permit = false := by
    rw [arm_tripOwn]; exact (trippedTo_tripBegin s x c true none).permit
  cases hx : s.guardState x with
  | offline => rw [State.guardActs_offline hx] at h; exact .inl h
  | arming =>
    rw [State.guardActs_arming hx] at h ⊢
    split_ifs at h ⊢ with hst
    · unfold State.countClean at h ⊢
      dsimp only at h ⊢
      split_ifs at h ⊢ with hclean hcount
      · exact .inr ⟨hst, rfl, hclean.1, by simp⟩
      · left; simpa using h
      · left; simpa using h
    · exact .inl h
  | live =>
    unfold State.guardActs at h
    rw [hx] at h
    dsimp only at h
    split at h
    · rw [htrip] at h; cases h
    · split at h
      · rw [htrip] at h; cases h
      · exact .inl h
  | tripped =>
    unfold State.guardActs at h
    rw [hx] at h
    dsimp only at h
    split at h
    · left; simpa [Guard.mapTrip] using h
    · exact .inl h

/-- An evaluation of a report that gives the permit, and what it leaves of the arm's blocks. -/
theorem State.permit_evaluateReport {s : State} {x : Arm} {rep : Report} {m : Nat} {st : Start}
    (h : ((s.evaluateReport x rep m st).arm x).guard.permit = true) : (s.arm x).guard.permit = true ∨
      st = .fresh ∧ s.guardState x = .arming ∧ (s.evaluateReport x rep m st).guardState x = .live ∧
        ((s.evaluateReport x rep m st).arm x).monitor = (s.arm x).monitor ∧
        ∃ e, s.evaluate x rep m = some e ∧ ((s.evaluateReport x rep m st).arm x).evaluation = some e ∧ e.result = none := by
  cases he : s.evaluate x rep m with
  | none =>
    rw [State.evaluateReport_of_none he] at h
    split_ifs at h
    · rw [arm_tripOwn, (trippedTo_tripBegin s x .stale true none).permit] at h; cases h
    · exact .inl h
  | some e =>
    rw [State.evaluateReport_of_evaluate he, State.arm_handOff] at h
    obtain hon | ⟨hst, harming, hclear, hlive⟩ := State.permit_guardActs h
    · left; simpa using hon
    · right
      have hunit : (s.evaluateReport x rep m st).arm x = ((s.setEvaluation x (some e)).guardActs x e st).arm x := by
        rw [State.evaluateReport_of_evaluate he, State.arm_handOff]
      obtain ⟨hmonitor, hevaluation⟩ := parts_guardActs (s.setEvaluation x (some e)) x e st x
      refine ⟨hst, ?_, ?_, ?_, e, rfl, ?_, hclear⟩
      · simpa [State.guardState] using harming
      · rw [State.guardState, hunit]; exact hlive
      · rw [hunit, hmonitor]; simp
      · rw [hunit, hevaluation]; simp

/-- What a report that gives the permit leaves of its arm (R122). -/
def State.RisesOn (s t : State) (x : Arm) (rep : Report) : Prop :=
  s.guardState x = .arming ∧ t.guardState x = .live ∧ (t.arm x).monitor.lastReport = some rep ∧
    (t.arm x).monitor.missed = 0 ∧
    ∃ e, (t.arm x).evaluation = some e ∧ e.count = rep.count ∧ e.result = none ∧ e.retained = false

theorem State.RisesOn.of_arm {s t u : State} {x : Arm} {rep : Report} (h : s.RisesOn t x rep) (harm : u.arm x = t.arm x) :
    s.RisesOn u x rep := by
  unfold State.RisesOn State.guardState at h ⊢
  rw [harm]
  exact h

theorem State.permit_armReport {s : State} {x : Arm} {rep : Report} (h : ((s.armReport x rep).arm x).guard.permit = true) :
    (s.arm x).guard.permit = true ∨ s.RisesOn (s.armReport x rep) x rep := by
  obtain hsame | ⟨why, hraise⟩ | hfresh := s.armReport_cases x rep
  · rw [hsame] at h; exact .inl h
  · rw [hraise, State.arm_raise] at h; exact .inl h
  · rw [hfresh] at h ⊢
    by_cases hx : s.guardState x = .offline
    · left
      simpa [State.freshReport, hx] using h
    · rw [State.freshReport_of_joined hx] at h ⊢
      obtain hon | ⟨-, harming, hlive, hmonitor, e, he, hevaluation, hclear⟩ := State.permit_evaluateReport h
      · left; simpa using hon
      · right
        refine ⟨by simpa [State.guardState] using harming, hlive, ?_, ?_, e, hevaluation, State.count_of_evaluate he, hclear,
          State.retained_of_evaluate he hclear⟩
        · rw [hmonitor]; simp [State.freshMonitor]
        · rw [hmonitor]; simp [State.freshMonitor]

theorem State.permit_periodExpiry {s : State} {x : Arm} (h : ((s.periodExpiry x).arm x).guard.permit = true) :
    (s.arm x).guard.permit = true := by
  have hbefore (m : Monitor) : (((s.setMonitor x m).expiryInArming x).arm x).guard.permit = (s.arm x).guard.permit := by
    unfold State.expiryInArming
    split <;> simp
  have hevaluate {u : State} {rep : Report} {m : Nat} {st : Start} (hst : st ≠ .fresh)
      (hu : ((u.evaluateReport x rep m st).arm x).guard.permit = true) : (u.arm x).guard.permit = true :=
    (State.permit_evaluateReport hu).resolve_right fun hrise => hst hrise.1
  unfold State.periodExpiry State.evaluateLast State.staleExpiry at h
  dsimp only at h
  rw [← hbefore]
  split at h
  · split at h
    · exact h
    · exact hevaluate (by simp) h
  · split at h
    · split at h
      · split at h
        · rw [arm_tripOwn, (trippedTo_tripBegin _ x .stale true none).permit] at h; cases h
        · exact hevaluate (by simp) h
      · exact h
    · exact h

end Sys2Proof.Machine
end

section
/-! SUPPORT. Over all commands: permits, isolation of the parties, and the control fields (R118, R122, R149, R156, R169). -/

namespace Sys2Proof.Machine

open Sys2Proof

/-! ### The blocks of an arm over every command -/

theorem State.arm_assertLine (s : State) (x : Arm) : (s.arm x).LeftOrTripped (s.assertLine.arm x) := by
  have hlevel (n : Notice) : (({ s with haltLevel := true } : State).raise .C n).arm x = s.arm x :=
    (State.arm_raise ..).trans (by cases x <;> rfl)
  unfold State.assertLine
  dsimp only
  split
  · obtain ⟨htrips, hstays⟩ := arm_haltCell (({ s with haltLevel := true } : State).raise .C (.haltLine s.mode)) .line x
    rw [hlevel] at htrips hstays
    cases hx : (({ s with haltLevel := true } : State).raise .C (.haltLine s.mode)).trippable x with
    | true => exact .inr (htrips hx)
    | false => exact .inl (hstays hx)
  · exact .inl (hlevel _)

/-- The report section of a request leaves the other port's arm, or trips it. -/
theorem State.arm_afterReport (s : State) (p : Party) (rep : Option Report) (x : Arm) :
    (s.arm x).LeftOrTripped ((s.afterReport p rep).arm x) ∨
      p = x.party ∧ (s.port p).reported = false ∧ ∃ r, rep = some r ∧ s.afterReport p rep = s.armReport x r := by
  cases hreported : (s.port p).reported with
  | true => rw [State.afterReport_of_reported rep hreported]; exact .inl (.inl rfl)
  | false =>
    rw [State.afterReport_of_not rep hreported]
    cases hp : p.arm with
    | none => left; left; simp [State.takeReport, hp]
    | some y =>
      obtain rfl := Party.eq_party_of_arm hp
      cases rep with
      | none => left; left; simp
      | some r =>
        rw [State.takeReport_arm]
        obtain rfl | rfl := Arm.eq_or_eq_other y x
        · exact .inr ⟨rfl, rfl, r, rfl, rfl⟩
        · exact .inl (s.arm_armReport_other y r)

/-- What a command can do to the blocks of an arm. -/
inductive State.DoesArm (c : Instr) (s t : State) (x : Arm) : Prop
  | left (h : (s.arm x).LeftOrTripped (t.arm x))
  | expired (hc : c = .reportPeriodExpiry x) (h : t.arm x = (s.periodExpiry x).arm x)
  | reset (hc : c = .reset) (h : t.arm x = State.reset.arm x)
  | served (q : Request) (hq : c.request = some q) (htaken : s.taken q.port c = true)
      (h : (s.afterReport q.port q.rep).ServesArm c x (t.arm x))

theorem State.Does.arm {c : Instr} {s t : State} (h : State.Does c s t) (x : Arm) : State.DoesArm c s t x := by
  have hleft {u : ArmUnit} (hu : u = s.arm x) : (s.arm x).LeftOrTripped u := .inl hu
  cases h with
  | nothing => exact .left (hleft rfl)
  | serves _ q _ u a hq htaken hserves => exact .served q hq htaken (by rw [State.arm_placeReply]; exact hserves.arm x)
  | heldExchange p f _ _ g => exact .left (hleft (Eq.trans (by cases x <;> rfl) (s.arm_shifts p g x)))
  | emptyExchange | takes | overruns | refuses | waitExpires | yieldAsked => exact .left (hleft (by simp))
  | periodExpires y _ hy =>
    obtain rfl | rfl := Arm.eq_or_eq_other y x
    · exact .expired rfl rfl
    · exact .left (s.arm_periodExpiry_other y)
  | heldLine | lineReleased => exact .left (hleft (by cases x <;> rfl))
  | lineAsserted =>
    have hpin : State.arm { s with haltPinLow := true } x = s.arm x := by cases x <;> rfl
    exact .left (hpin ▸ State.arm_assertLine { s with haltPinLow := true } x)
  | resets => exact .reset rfl (by cases x <;> rfl)
  | released _ u _ hu =>
    refine .left ?_
    have hheld : State.arm { s with held := false } x = s.arm x := by cases x <;> rfl
    rw [State.arm_placeRestarted, State.arm_placeRestarted, State.arm_placeRestarted, hu]
    split
    · exact hheld ▸ State.arm_assertLine { s with held := false } x
    · exact hleft (by cases x <;> rfl)

/-! ### Permits (R118, R122) -/

/-- A command section gives no permit. -/
theorem State.ServesArm.permit {c : Instr} {s : State} {x : Arm} {u : ArmUnit} (h : s.ServesArm c x u)
    (hu : u.guard.permit = true) : u = s.arm x := by
  cases h with
  | left => rfl
  | joined | gone | rearmed => cases hu
  | halted _ _ _ _ htrip => rw [htrip.permit] at hu; cases hu

theorem State.permit_takeSection {s : State} {x y : Arm} {rep : Report} (hoff : (s.arm x).guard.permit = false)
    (hon : ((s.takeSection y rep).arm x).guard.permit = true) : y = x ∧ s.RisesOn (s.takeSection y rep) x rep := by
  obtain ⟨harms, -⟩ := State.takeSection_parts s y rep
  rw [harms] at hon
  obtain rfl | rfl := Arm.eq_or_eq_other y x
  · obtain hpermit | hrises := State.permit_armReport hon
    · simp [hoff] at hpermit
    · exact ⟨rfl, hrises.of_arm (harms _)⟩
  · simp [(s.arm_armReport_other y rep).permit hon] at hoff

theorem State.permit_does {c : Instr} {s t : State} {x : Arm} (h : State.Does c s t) (hoff : (s.arm x).guard.permit = false)
    (hon : (t.arm x).guard.permit = true) : ∃ q rep, c.request = some q ∧ q.port = x.party ∧ q.rep = some rep ∧
      s.taken q.port c = true ∧ s.SectionDue x rep ∧ s.RisesOn t x rep := by
  cases h.arm x with
  | left hleft => simp [hleft.permit hon] at hoff
  | expired _ ht => rw [ht] at hon; simp [State.permit_periodExpiry hon] at hoff
  | reset _ ht => rw [ht] at hon; cases x <;> cases hon
  | served q hq htaken hserves =>
    have hsame := hserves.permit hon
    obtain hleft | ⟨hport, hreported, rep, hrep, hafter⟩ := s.arm_afterReport q.port q.rep x
    · rw [hsame] at hon; simp [hleft.permit hon] at hoff
    · rw [hafter] at hsame
      obtain hpermit | hrises := State.permit_armReport (hsame ▸ hon)
      · simp [hoff] at hpermit
      · obtain ⟨f, hf, hdecode⟩ := (s.taken_iff q.port c).mp htaken
        exact ⟨q, rep, hq, hport, hrep, htaken, ⟨hport ▸ hreported, f, c, q, hport ▸ hf, hport ▸ hdecode, hq, hrep⟩,
          hrises.of_arm hsame⟩

/-- Settles O53: what is left of an arm's blocks by every command but its own port's gives no permit. -/
theorem permitRisesOnACleanReportAlone : Obligations.PermitRisesOnACleanReportAlone := by
  unfold Obligations.PermitRisesOnACleanReportAlone
  intro s t x hoff hon rises
  have hcommand (c : Instr) (h : exec c s = .next t) : ∃ q rep, c.request = some q ∧ q.port = x.party ∧ q.rep = some rep ∧
      s.taken q.port c = true ∧ s.SectionDue x rep ∧ rises rep := State.permit_does (State.does_of_exec h) hoff hon
  refine ⟨hcommand, fun hpending hstep => ?_⟩
  have hsection {y : Arm} {rep : Report} (hdue : s.reportDue y = some rep) (ht : t = s.takeSection y rep) :
      ∃ rep, s.SectionDue x rep ∧ rises rep := by
    subst ht
    obtain ⟨rfl, hrises⟩ := State.permit_takeSection hoff hon
    exact ⟨rep, (s.sectionDue_iff y rep).mpr hdue, hrises⟩
  rw [step_idle hpending] at hstep
  obtain ⟨rep, hdue, hidle⟩ | ⟨rep, -, hdue, hidle⟩ | ⟨-, ⟨c, -, hidle⟩ | ⟨-, hidle⟩⟩ := idle_cases s <;> rw [hidle] at hstep
  · cases hstep; exact hsection hdue rfl
  · cases hstep; exact hsection hdue rfl
  · obtain ⟨q, rep, -, -, -, -, hdue, hrises⟩ := hcommand c hstep
    exact ⟨rep, hdue, hrises⟩
  · cases hstep
    have hsame : ((s.elapse Config.tick).arm x).guard = (s.arm x).guard := by cases x <;> rfl
    rw [hsame, hoff] at hon
    cases hon

/-! ### Isolation (R41, R161, R169) -/

theorem State.OnlyRaises.kept {s t : State} (h : s.OnlyRaises t) (p : Party) {n : Notice} (hn : n ∈ (s.port p).attention) :
    ∃ m ∈ (t.port p).attention, m.code = n.code := by
  have hcode : n.code ∈ (t.port p).attention.map Notice.code := by
    have hraises := h p
    generalize t.port p = q at hraises
    induction hraises with
    | refl => exact List.mem_map_of_mem hn
    | tail _ hraise ih =>
      obtain ⟨m, rfl⟩ := hraise
      exact code_mem_insertNotice ih
  obtain ⟨m, hm, heq⟩ := List.mem_map.mp hcode
  exact ⟨m, hm, heq⟩

/-- A command leaves a port's notices by kind, but for that port's ACK and RESET (R169, R170). -/
theorem State.Does.kept {c : Instr} {s t : State} (h : State.Does c s t) (hreset : c ≠ .reset) {p : Party}
    (hack : ∀ tag rep codes, c ≠ .ack p tag rep codes) {n : Notice} (hn : n ∈ (s.port p).attention) :
    ∃ m ∈ (t.port p).attention, m.code = n.code := by
  have hsame {u : State} (hu : (u.port p).attention = (s.port p).attention) : ∃ m ∈ (u.port p).attention, m.code = n.code :=
    ⟨n, hu ▸ hn, rfl⟩
  have honly {u : State} (hu : s.OnlyRaises u) : ∃ m ∈ (u.port p).attention, m.code = n.code := hu.kept p hn
  have hshifts (q : Party) (f : Frame) : ((s.shifts q f).port p).attention = (s.port p).attention := by
    by_cases hp : p = q
    · subst hp; simp
    · rw [State.shifts, State.port_setPort_of_ne _ _ hp]
  cases h with
  | nothing => exact hsame rfl
  | serves _ q _ u a hq htaken hserves =>
    have hreport := ((State.Moves.refl s).afterReport q.port q.rep).onlyRaises
    obtain ⟨hattention, -⟩ := State.placeReply_attention u q.port p q.tag q.kind a
    rw [hattention]
    obtain hserved | ⟨r, tag, rep, codes, rfl, rfl⟩ := hserves.onlyRaises
    · exact honly (hreport.trans hserved)
    · have hp : p ≠ r := fun he => hack tag rep codes (by rw [he])
      rw [State.port_setPort_of_ne _ _ hp]
      exact honly hreport
  | heldExchange q f _ _ g => exact hsame (Eq.trans (by cases p <;> rfl) (hshifts q g))
  | emptyExchange q f _ _ _ g => exact hsame (hshifts q g)
  | takes q f _ _ _ g =>
    refine hsame (Eq.trans ?_ (hshifts q g))
    by_cases hp : p = q
    · subst hp; rw [State.port_setPort]
    · rw [State.port_setPort_of_ne _ _ hp]
  | overruns q f _ _ g =>
    obtain ⟨m, hm, hcode⟩ := ((State.OnlyRaises.refl (s.shifts q g)).raise q .portFault).kept p (n := n)
      ((hshifts q g).symm ▸ hn)
    exact ⟨m, hm, hcode⟩
  | refuses q _ tag kind a => exact hsame (State.placeReply_attention s q p tag kind a).1
  | periodExpires y _ hy => exact honly ((State.Moves.refl s).periodExpiry y hy).onlyRaises
  | waitExpires q k _ w hw =>
    exact honly (((State.OnlyRaises.refl s).of_port_eq fun r => port_removePending s _ r).raise q _).grantScan
  | yieldAsked q k _ r w l hslot =>
    exact honly (((State.OnlyRaises.refl s).of_port_eq fun y => s.port_setSlot q k _ y).raiseYield q k r)
  | heldLine | lineReleased => exact hsame (by cases p <;> rfl)
  | lineAsserted =>
    exact honly ((State.OnlyRaises.refl s).of_port_eq (u := { s with haltPinLow := true }) fun q => by
      cases q <;> rfl).assertLine
  | resets => exact absurd rfl hreset
  | released _ u _ hu =>
    have hu' : s.OnlyRaises u := by
      rw [hu]
      split_ifs
      · exact ((State.OnlyRaises.refl s).of_port_eq (u := { s with held := false }) fun q => by cases q <;> rfl).assertLine
      · exact (State.OnlyRaises.refl s).of_port_eq fun q => by cases q <;> rfl
    have hplaced (v : State) (q : Party) : ((v.placeRestarted q).port p).attention = (v.port p).attention := by
      by_cases hp : p = q
      · subst hp; simp
      · rw [State.placeRestarted, State.port_setPort_of_ne _ _ hp]
    rw [hplaced, hplaced, hplaced]
    exact honly hu'

/-- Settles O55, by what each command does to an arm's blocks, to a port's exchange side and to its notices. -/
theorem partiesAreIsolated : Obligations.PartiesAreIsolated := by
  unfold Obligations.PartiesAreIsolated
  intro c s t h hreset
  have hdoes := State.does_of_exec h
  refine ⟨fun y hport hexpiry hevict hstop => ?_, fun p hport hframe hend hover hrelease => ?_,
    fun p hack n hn => hdoes.kept hreset hack hn⟩
  · cases hdoes.arm y with
    | left hleft => exact hleft.parts
    | expired hc _ => exact absurd hc hexpiry
    | reset hc _ => exact absurd hc hreset
    | served q hq htaken hserves =>
      obtain hleft | ⟨hp, -⟩ := s.arm_afterReport q.port q.rep y
      · obtain ⟨hmonitor, hevaluation⟩ := hleft.parts
        rw [← hmonitor, ← hevaluation]
        generalize t.arm y = u at hserves
        cases hserves with
        | left => exact ⟨rfl, rfl⟩
        | joined tag rep epoch hc =>
          subst hc
          obtain rfl := Option.some.inj hq
          exact absurd rfl (hport _ rfl)
        | gone hc =>
          obtain ⟨tag, rep, rfl⟩ | ⟨tag, arm, rfl⟩ | ⟨tag, rfl⟩ := hc
          · obtain rfl := Option.some.inj hq
            exact absurd rfl (hport _ rfl)
          · exact absurd rfl (hevict tag arm)
          · exact absurd rfl (hstop tag)
        | rearmed => exact ⟨rfl, rfl⟩
        | halted _ _ _ _ htrip => exact ⟨htrip.monitor, htrip.evaluation⟩
      · exact absurd hp (hport q hq)
  · obtain hkept | ⟨hat, -⟩ := hdoes.exchange p
    · exact hkept
    · obtain ⟨q, hq, hp⟩ | hc | ⟨f, hc⟩ | ⟨f, hc⟩ | hc | hc := hat
      · exact absurd hp (hport q hq)
      · exact absurd hc hframe
      · exact absurd hc (hend f)
      · exact absurd hc (hover f)
      · exact absurd hc hreset
      · exact absurd hc hrelease

end Sys2Proof.Machine
end

section
/-! SUPPORT. Which commands change the control fields and the records of tiles (R8, R13 to R17, R149 to R156). -/

namespace Sys2Proof.Machine

open Sys2Proof

/-! ### A tile's class and service over moves (R15) -/

/-- A record keeps its class, and its service but for CLOSING to BLOCKED (R15). -/
def TileRecord.Aged (q r : TileRecord) : Prop :=
  r.speedClass = q.speedClass ∧ (r.service = q.service ∨ q.service = .closing ∧ r.service = .blocked)

namespace TileRecord.Aged

@[refl] theorem refl (q : TileRecord) : q.Aged q := ⟨rfl, .inl rfl⟩

theorem of_eq {q r : TileRecord} (h : r = q) : q.Aged r := h ▸ refl q

@[trans] theorem trans {q r u : TileRecord} (h : q.Aged r) (hu : r.Aged u) : q.Aged u := by
  obtain ⟨hclass, hservice⟩ := h
  obtain ⟨huclass, huservice⟩ := hu
  refine ⟨huclass.trans hclass, ?_⟩
  obtain hsame | ⟨hclosing, hblocked⟩ := hservice
  · rw [← hsame]; exact huservice
  · obtain husame | ⟨huclosing, -⟩ := huservice
    · exact .inr ⟨hclosing, husame.trans hblocked⟩
    · rw [hblocked] at huclosing; cases huclosing

theorem dropHold (q : TileRecord) : q.Aged q.dropHold := by
  obtain ⟨hclass, -, -, hservice⟩ := q.dropHold_spec
  refine ⟨hclass, ?_⟩
  rw [hservice]
  split_ifs with h
  · exact .inr ⟨h.2, rfl⟩
  · exact .inl rfl

theorem addHold (q : TileRecord) (p : Party) : q.Aged (q.addHold p) := ⟨rfl, .inl rfl⟩

theorem stopped (q : TileRecord) : q.Aged q.stopped := by
  unfold TileRecord.stopped
  refine ⟨rfl, ?_⟩
  dsimp only
  split_ifs with h
  · exact .inr ⟨h, rfl⟩
  · exact .inl rfl

theorem ite {q r : TileRecord} {c : Prop} [Decidable c] (h : q.Aged r) : q.Aged (if c then r else q) := by
  split_ifs
  · exact h
  · rfl

end TileRecord.Aged

theorem State.aged_releaseSlot (s : State) (p : Party) (k : SlotNo) (z : Tile) :
    (s.tile z).Aged ((s.releaseSlot p k).1.tile z) := by
  rw [State.tile_releaseSlot]
  exact (TileRecord.Aged.dropHold _).ite

theorem State.aged_grant (s : State) (n : ClaimName) (r : Rect) (l : Option SlotNo) (z : Tile) :
    (s.tile z).Aged ((s.grant n r l).1.tile z) := by
  have htarget (m : Option SlotNo) : (s.tile z).Aged ((s.holdTarget n r m).tile z) := by
    rw [State.tile_holdTarget, State.tile_addHolds]
    exact (TileRecord.Aged.addHold _ _).ite
  cases l with
  | none => rw [State.grant_none]; exact htarget none
  | some i =>
    by_cases hp : n.party = .C
    · rw [State.grant_cell _ _ _ hp]; exact (htarget _).trans (State.aged_releaseSlot ..)
    · rw [State.grant_arm _ _ _ hp, tile_startDrain]; exact htarget _

theorem State.Move.aged {s t : State} (h : s.Move t) (z : Tile) : (s.tile z).Aged (t.tile z) := by
  cases h with
  | release p k => exact State.aged_releaseSlot s p k z
  | releaseTrip x => rw [State.tile_releaseTrip]; exact (TileRecord.Aged.dropHold _).ite
  | grant n w => exact State.aged_grant s n w.rect w.link z
  | trip x c own o => rw [State.tile_tripBegin]; exact TileRecord.Aged.ite ⟨rfl, .inl rfl⟩
  | _ => exact .of_eq (by simp)

theorem State.Moves.aged {s t : State} (h : s.Moves t) (z : Tile) : (s.tile z).Aged (t.tile z) :=
  h.keeps (P := fun u => (s.tile z).Aged (u.tile z)) (fun _ _ hmove ha => ha.trans (hmove.aged z)) (.refl _)

/-! ### The requests -/

/-- What a command section leaves of the control fields (R149 to R154). -/
structure State.ServesControl (c : Instr) (s t : State) : Prop where
  mode : t.mode = s.mode ∨ ∃ tag, c = .start tag ∨ c = .stop tag ∨ c = .halt tag ∨ c = .clearHalt tag
  epoch : t.epoch = s.epoch ∨ ∃ tag, c = .start tag
  haltLevel : t.haltLevel = s.haltLevel

theorem State.ServesControl.of_eq {c : Instr} {s t : State} (hmode : t.mode = s.mode) (hepoch : t.epoch = s.epoch)
    (hlevel : t.haltLevel = s.haltLevel) : State.ServesControl c s t := ⟨.inl hmode, .inl hepoch, hlevel⟩

theorem State.ServesControl.of_moves {c : Instr} {s t u : State} (h : State.ServesControl c s t) (hu : t.Moves u) :
    State.ServesControl c s u := by
  obtain ⟨hmode, hepoch, -, hlevel, -⟩ := hu.control
  exact ⟨hmode ▸ h.mode, hepoch ▸ h.epoch, hlevel ▸ h.haltLevel⟩

theorem State.Serves.control {c : Instr} {s t : State} (h : State.Serves c s t) : State.ServesControl c s t := by
  cases h with
  | shifts _ p k source r =>
    exact (State.ServesControl.of_eq (by simp) (by simp) (by simp)).of_moves (s.settleShift_moves p k source r)
  | blocks tag c0 c1 r0 r1 =>
    unfold blockRequest
    split
    · exact .of_eq rfl rfl rfl
    · split
      · exact .of_eq rfl rfl rfl
      · dsimp only
        split <;> exact .of_eq (by simp) (by simp) (by simp)
  | unblocks tag c0 c1 r0 r1 =>
    unfold unblockRequest
    split
    · exact .of_eq rfl rfl rfl
    · split
      · exact .of_eq rfl rfl rfl
      · exact .of_eq (by simp) (by simp) (by simp)
  | writes tag row start entries =>
    unfold writeRowRequest
    split_ifs <;> exact .of_eq rfl rfl rfl
  | starts tag => exact ⟨.inr ⟨tag, .inl rfl⟩, .inr ⟨tag, rfl⟩, rfl⟩
  | stops tag _ hmode =>
    rw [stopRequest, if_neg hmode]
    exact ⟨.inr ⟨tag, .inr (.inl rfl)⟩, .inl (by simp), by simp⟩
  | halts tag =>
    obtain ⟨-, hepoch, -, hlevel, -⟩ := (s.haltCell_moves .request).control
    exact ⟨.inr ⟨tag, .inr (.inr (.inl rfl))⟩, .inl hepoch, hlevel⟩
  | clearsHalt tag => exact ⟨.inr ⟨tag, .inr (.inr (.inr rfl))⟩, .inl rfl, rfl⟩
  | joins => exact .of_eq (by simp [State.joins]) (by simp [State.joins]) (by simp [State.joins])
  | evicts => exact .of_eq (by simp [State.evicts]) (by simp [State.evicts]) (by simp [State.evicts])
  | _ => exact .of_eq (by simp) (by simp) (by simp)

theorem State.aged_haltCell (s : State) (src : HaltSource) (z : Tile) : (s.tile z).Aged ((s.haltCell src).tile z) :=
  (s.haltCell_moves src).aged z

/-- What a command section leaves of a tile's class and service, but for the requests that write them. -/
theorem State.Serves.aged {c : Instr} {s t : State} (h : State.Serves c s t) (z : Tile) : (s.tile z).Aged (t.tile z) ∨
    (∃ tag r k es, c = .writeRow tag r k es ∧ s.mode = .setup) ∨
    ((∃ tag c0 c1 r0 r1, c = .block tag c0 c1 r0 r1) ∨ ∃ tag c0 c1 r0 r1, c = .unblock tag c0 c1 r0 r1) ∧
      (t.tile z).speedClass = (s.tile z).speedClass := by
  have hmoves {u v : State} (hu : ∀ z, u.tile z = s.tile z) (huv : u.Moves v) : (s.tile z).Aged (v.tile z) := hu z ▸ huv.aged z
  cases h with
  | evicts x =>
    refine .inl ?_
    have haged := (((State.Moves.refl s).evictClaims x).grantScan).aged z
    simpa [State.evicts] using haged
  | grants _ p k r => exact .inl (State.aged_grant ..)
  | shifts _ p k source r => exact .inl ((State.aged_grant ..).trans ((s.settleShift_moves p k source r).aged z))
  | withdraws _ p k w _ hw => exact .inl (((State.Moves.refl s).step (.remove s _ w hw)).grantScan.aged z)
  | releases _ p k _ hheld => exact .inl (((State.Moves.refl s).step (.release s p k hheld)).grantScan.aged z)
  | releasesTrip _ x => exact .inl (((State.Moves.refl s).step (.releaseTrip s x)).grantScan.aged z)
  | blocks tag c0 c1 r0 r1 =>
    refine .inr (.inr ⟨.inl ⟨tag, c0, c1, r0, r1, rfl⟩, ?_⟩)
    unfold blockRequest
    split
    · rfl
    · split
      · rfl
      · rename_i r b _
        have htile (m : Nat) (f : Tile → Bool) (l : List ClaimName) : ((l.foldl (withdrawOver f)
            { s with tiles := s.tiles.update fun t q => if r.contains t then q.block else q, closing := m }).tile z).speedClass =
            (s.tile z).speedClass := by
          rw [tile_withdrawAll]
          refine (congrArg TileRecord.speedClass (TileMap.get_update ..)).trans ?_
          split_ifs
          · exact (s.tiles.get z).block_parts.2.2
          · rfl
        dsimp only
        split
        · exact (((State.Moves.refl _).grantScan.aged z).1).trans (htile _ _ _)
        · exact htile _ _ _
  | unblocks tag c0 c1 r0 r1 =>
    refine .inr (.inr ⟨.inr ⟨tag, c0, c1, r0, r1, rfl⟩, ?_⟩)
    unfold unblockRequest
    split
    · rfl
    · split
      · rfl
      · dsimp only
        refine (((State.Moves.refl _).grantScan.aged z).1).trans ?_
        rw [tile_lowerClosing]
        refine (congrArg TileRecord.speedClass (TileMap.get_update ..)).trans ?_
        split_ifs <;> rfl
  | writes tag row start entries _ hmode => exact .inr (.inl ⟨tag, row, start, entries, rfl, hmode⟩)
  | stops tag _ hmode =>
    left
    have htile : ((stopRequest s).1).tile z = (s.tile z).stopped := by
      rw [stopRequest, if_neg hmode, State.tile_raise, State.tile_raise]
      refine Eq.trans (b := ((s.clearClaims.goOffline .A).goOffline .B).tile z) rfl ?_
      rw [tile_goOffline, tile_goOffline, State.tile_clearClaims]
    rw [htile]
    exact .stopped _
  | halts => exact .inl (s.aged_haltCell .request z)
  | sets | starts | clearsHalt => exact .inl (.of_eq rfl)
  | joins => exact .inl (.of_eq (by simp [State.joins]))
  | _ => exact .inl (.of_eq (by simp))

/-! ### Every command -/

theorem State.assertLine_control (s : State) : s.assertLine.epoch = s.epoch ∧ ∀ z, (s.tile z).Aged (s.assertLine.tile z) := by
  unfold State.assertLine
  dsimp only
  have hepoch : (({ s with haltLevel := true } : State).raise .C (.haltLine s.mode)).epoch = s.epoch := by simp
  have htile (z : Tile) : (({ s with haltLevel := true } : State).raise .C (.haltLine s.mode)).tile z = s.tile z :=
    (State.tile_raise ..).trans rfl
  generalize (({ s with haltLevel := true } : State).raise .C (.haltLine s.mode)) = u at hepoch htile
  split
  · obtain ⟨-, hhalted, -⟩ := (u.haltCell_moves .line).control
    refine ⟨hhalted.trans hepoch, fun z => ?_⟩
    have haged := u.aged_haltCell .line z
    rw [htile z] at haged
    exact haged
  · exact ⟨hepoch, fun z => .of_eq (htile z)⟩

/-- What a command leaves of the control fields. -/
structure State.DoesControl (c : Instr) (s t : State) : Prop where
  mode : t.mode = s.mode ∨ (∃ tag, c = .start tag ∨ c = .stop tag ∨ c = .halt tag ∨ c = .clearHalt tag) ∨
    c = .haltLineAssertion ∨ c = .reset ∨ c = .resetRelease
  epoch : t.epoch = s.epoch ∨ (∃ tag, c = .start tag) ∨ c = .reset
  haltLevel : t.haltLevel = s.haltLevel ∨ c = .haltLineAssertion ∨ c = .haltLineRelease ∨ c = .reset ∨ c = .resetRelease

theorem State.DoesControl.of_eq {c : Instr} {s t : State} (hmode : t.mode = s.mode) (hepoch : t.epoch = s.epoch)
    (hlevel : t.haltLevel = s.haltLevel) : State.DoesControl c s t := ⟨.inl hmode, .inl hepoch, .inl hlevel⟩

theorem State.Does.control {c : Instr} {s t : State} (h : State.Does c s t) : State.DoesControl c s t := by
  cases h with
  | serves _ q _ u a hq htaken hserves =>
    obtain ⟨hmode, hepoch, -, hlevel, -⟩ := ((State.Moves.refl s).afterReport q.port q.rep).control
    obtain ⟨hmode', hepoch', hlevel'⟩ := hserves.control
    rw [hmode] at hmode'
    rw [hepoch] at hepoch'
    exact ⟨hmode'.imp (by simp) .inl, hepoch'.imp (by simp) .inl, .inl (by simp [hlevel', hlevel])⟩
  | periodExpires x _ hx =>
    obtain ⟨hmode, hepoch, -, hlevel, -⟩ := ((State.Moves.refl s).periodExpiry x hx).control
    exact .of_eq hmode hepoch hlevel
  | lineAsserted => exact ⟨.inr (.inr (.inl rfl)), .inl (State.assertLine_control _).1, .inr (.inl rfl)⟩
  | lineReleased => exact ⟨.inl rfl, .inl rfl, .inr (.inr (.inl rfl))⟩
  | resets => exact ⟨.inr (.inr (.inr (.inl rfl))), .inr (.inr rfl), .inr (.inr (.inr (.inl rfl)))⟩
  | released _ u _ hu =>
    refine ⟨.inr (.inr (.inr (.inr rfl))), .inl ?_, .inr (.inr (.inr (.inr rfl)))⟩
    simp only [State.placeRestarted_frame]
    rw [hu]
    split
    · exact (State.assertLine_control _).1
    · rfl
  | heldLine => exact .of_eq rfl rfl rfl
  | heldExchange p f _ _ g => exact .of_eq (s.shifts_frame p g).2.2.1 (by simp) (by simp)
  | _ => exact .of_eq (by simp) (by simp) (by simp)

theorem State.Does.aged {c : Instr} {s t : State} (h : State.Does c s t) (z : Tile) : (s.tile z).Aged (t.tile z) ∨
    (∃ tag r k es, c = .writeRow tag r k es ∧ s.mode = .setup) ∨
    ((∃ tag c0 c1 r0 r1, c = .block tag c0 c1 r0 r1) ∨ ∃ tag c0 c1 r0 r1, c = .unblock tag c0 c1 r0 r1) ∧
      (t.tile z).speedClass = (s.tile z).speedClass ∨ c = .reset := by
  cases h with
  | serves _ q _ u a hq htaken hserves =>
    have hmoves := (State.Moves.refl s).afterReport q.port q.rep
    have hreport := hmoves.aged z
    rw [State.tile_placeReply]
    obtain haged | ⟨tag, r, k, es, hc, hsetup⟩ | ⟨hc, hclass⟩ := hserves.aged z
    · exact .inl (hreport.trans haged)
    · exact .inr (.inl ⟨tag, r, k, es, hc, hmoves.mode_eq ▸ hsetup⟩)
    · exact .inr (.inr (.inl ⟨hc, hclass.trans hreport.1⟩))
  | heldExchange p f _ _ g => exact .inl (.of_eq (State.tile_shifts s p g z))
  | periodExpires x _ hx => exact .inl (((State.Moves.refl s).periodExpiry x hx).aged z)
  | waitExpires p k _ w hw =>
    have hremoved := (((State.Moves.refl s).step (.remove s _ w hw)).raise p (.expired k)
      (Notice.allowedAt_of_code_le p (by simp [Notice.code]))).grantScan
    exact .inl (hremoved.aged z)
  | lineAsserted => exact .inl ((State.assertLine_control { s with haltPinLow := true }).2 z)
  | heldLine | lineReleased => exact .inl (.of_eq rfl)
  | resets => exact .inr (.inr (.inr rfl))
  | released _ u _ hu =>
    left
    rw [State.tile_placeRestarted, State.tile_placeRestarted, State.tile_placeRestarted, hu]
    split
    · exact (State.assertLine_control { s with held := false }).2 z
    · exact .of_eq rfl
  | _ => exact .inl (.of_eq (by simp))

/-- Settles O54, by what each command leaves of the control fields and of the tiles. -/
theorem controlChangesByNamedCommands : Obligations.ControlChangesByNamedCommands := by
  unfold Obligations.ControlChangesByNamedCommands
  intro c s t h
  have hdoes := State.does_of_exec h
  obtain ⟨hmode, hepoch, hlevel⟩ := hdoes.control
  refine ⟨hmode.resolve_left, hepoch.resolve_left, hlevel.resolve_left, fun hne => ?_, fun z => ⟨fun hne => ?_, fun hne => ?_⟩⟩
  · obtain hsame | ⟨hc, -⟩ | ⟨tag, i, v, -, hc, hsetup, -⟩ := hdoes.params
    · exact absurd hsame hne
    · exact .inr hc
    · exact .inl ⟨tag, i, v, hc, hsetup⟩
  · obtain haged | hwrite | ⟨-, hclass⟩ | hreset := hdoes.aged z
    · exact absurd haged.1 hne
    · exact .inl hwrite
    · exact absurd hclass hne
    · exact .inr hreset
  · obtain ⟨-, haged⟩ | ⟨tag, r, k, es, hc, -⟩ | ⟨hblock | hunblock, -⟩ | hreset := hdoes.aged z
    · exact .inr (.inr (.inr (.inr (haged.resolve_left hne))))
    · exact .inl ⟨tag, r, k, es, hc⟩
    · exact .inr (.inl hblock)
    · exact .inr (.inr (.inl hunblock))
    · exact .inr (.inr (.inr (.inl hreset)))

end Sys2Proof.Machine
end

section
/-! SUPPORT. STOP (R18, R98, R151): what it leaves, field by field. -/

namespace Sys2Proof.Machine

open Sys2Proof

/-- The state that a STOP outside SETUP leaves. -/
def State.stoppedCell (s : State) : State :=
  { s with
    mode := .setup, queue := [], closing := 0, claims := .initial, tiles := s.tiles.update fun _ q => q.stopped,
    armA := s.armA.offline, armB := s.armB.offline, portA := s.portA.raise (.stopped s.mode),
    portB := s.portB.raise (.stopped s.mode), portC := if 0 < s.closing then s.portC.raise .blockDone else s.portC }

theorem stopRequest_of_not_setup {s : State} (hmode : s.mode ≠ .setup) : stopRequest s =
    (s.stoppedCell, ⟨.done, false, .stopped s.mode s.claimsHeld (countTiles fun t => (s.tile t).service == .closing)⟩) := by
  rw [stopRequest, if_neg hmode]
  refine Prod.ext ?_ rfl
  dsimp only
  unfold State.stoppedCell State.clearClaims
  dsimp only
  split_ifs <;> rfl

theorem Claim.state_eq_empty_iff {c : Claim} : c.state = .empty ↔ c = .empty := by cases c <;> simp [Claim.state]

theorem Claim.state_bne_empty (c : Claim) : (c.state != .empty) = decide (c ≠ .empty) := by
  rw [bne, Bool.beq_eq_decide_eq, decide_not, decide_eq_decide.mpr Claim.state_eq_empty_iff]

theorem State.claimsHeld_eq (s : State) : s.claimsHeld =
    (parties.map fun p => slotNos.countP fun k => decide (s.slot p k ≠ .empty)).sum +
      [Arm.A, Arm.B].countP fun x => decide (s.tripTiles x ≠ []) := by
  simp only [State.claimsHeld, Claim.state_bne_empty, List.countP_cons, List.countP_nil, decide_eq_true_eq]
  split_ifs <;> simp_all

/-- Settles O7, on the fields of the state that STOP leaves. -/
theorem stopReturnsToSetup : Obligations.StopReturnsToSetup := by
  unfold Obligations.StopReturnsToSetup
  intro tag s htaken
  have hexec := exec_stop tag htaken
  refine ⟨fun hmode => ?_, fun hmode => ?_⟩
  · rw [stopRequest, if_pos hmode] at hexec
    exact hexec
  · rw [stopRequest_of_not_setup hmode] at hexec
    refine ⟨s.stoppedCell, s.claimsHeld, hexec, s.claimsHeld_eq, rfl, rfl, rfl, fun p k => ?_, fun x => ?_, fun t => ?_,
      fun x => ?_, rfl, rfl, rfl, rfl⟩
    · cases p <;> fin_cases k <;> rfl
    · cases x <;> rfl
    · exact TileMap.get_update ..
    · cases x <;> rfl

end Sys2Proof.Machine
end

section
/-! SUPPORT. EVICT (R96, R126, R127): the claims of the arm, one after another. -/

namespace Sys2Proof.Machine

open Sys2Proof

theorem State.controlKept_trans {s t u : State} (hs : s.ControlKept t) (ht : t.ControlKept u) : s.ControlKept u := by
  rw [hs] at ht
  exact ht

/-! ### The owner of the tiles of a claim (R6) -/

theorem State.holdsTile_le (s : State) (p : Party) (k : SlotNo) (z : Tile) : (s.slot p k).holdsTile z ≤ s.holdsOf p z := by
  rw [State.holdsOf_eq]
  fin_cases k <;> dsimp only <;> simp only [Fin.zero_eta, Fin.mk_one, Fin.reduceFinMk] <;> omega

namespace State.GridLaw

variable {s : State}

theorem owner_of_holds (h : s.GridLaw) {p : Party} {z : Tile} (hz : 0 < s.holdsOf p z) : (s.tile z).owner = some p := by
  obtain ⟨-, hholds, -⟩ := h.ground.tiles z
  have hcount := hholds p
  by_contra hne
  rw [if_neg hne] at hcount
  omega

theorem owner_of_heldRect (h : s.GridLaw) {p : Party} {k : SlotNo} {r : Rect} (hheld : (s.slot p k).heldRect = some r)
    {z : Tile} (hz : r.contains z = true) : (s.tile z).owner = some p := by
  refine h.owner_of_holds (lt_of_lt_of_le ?_ (s.holdsTile_le p k z))
  simp [Claim.holdsTile, hheld, hz]

theorem owner_of_inTrip (h : s.GridLaw) {x : Arm} {z : Tile} (hz : s.inTrip x z = true) : (s.tile z).owner = some x.party := by
  refine h.owner_of_holds ?_
  have htrip : s.tripHolds x.party z = 1 := by simp [State.tripHolds, hz]
  rw [State.holdsOf_eq]
  omega

/-- A party whose slots are EMPTY, slot 4 among them, owns no tile. -/
theorem owner_ne_of_empty (h : s.GridLaw) {x : Arm} (hslot : ∀ k, s.slot x.party k = .empty) (htrip : s.tripTiles x = [])
    (z : Tile) : (s.tile z).owner ≠ some x.party := by
  intro howner
  obtain ⟨hfree, hholds, -⟩ := h.ground.tiles z
  have hcount := hholds x.party
  have hnone : s.holdsOf x.party z = 0 := by
    simp [State.holdsOf_eq, hslot, Claim.holdsTile_of_none (c := .empty) rfl, State.tripHolds, State.inTrip, htrip]
  rw [if_pos howner, hnone] at hcount
  rw [hfree.mpr hcount.symm] at howner
  cases howner

end State.GridLaw

/-! ### One release of an eviction -/

/-- A record on the way of an eviction of its owner `p`: freed, or still the owner's; a tile of another is left. -/
structure TileRecord.EvictedTo (q r : TileRecord) (p : Party) : Prop where
  other : q.owner ≠ some p → r = q
  own : q.owner = some p → r = q.stopped ∨ r.owner = some p ∧ r.service = q.service ∧ r.speedClass = q.speedClass

theorem TileRecord.EvictedTo.refl (q : TileRecord) (p : Party) : q.EvictedTo q p :=
  ⟨fun _ => rfl, fun h => .inr ⟨h, rfl, rfl⟩⟩

theorem TileRecord.EvictedTo.ended {q r : TileRecord} {p : Party} (h : q.EvictedTo r p) (hr : r.owner = some p) :
    q.EvictedTo r.ended p := by
  refine ⟨fun hq => ?_, fun hq => ?_⟩
  · rw [h.other hq] at hr; exact absurd hr hq
  · obtain hfreed | ⟨-, hservice, hclass⟩ := h.own hq
    · rw [hfreed] at hr; cases hr
    · unfold TileRecord.ended
      by_cases hhold : 1 < r.hold
      · rw [if_pos hhold]
        exact .inr ⟨hr, hservice, hclass⟩
      · rw [if_neg hhold, hservice, hclass]
        exact .inl rfl

/-- The way of an eviction of an arm, from the cancellation of its PENDING claim on: `freed` tiles have been freed. -/
structure State.Evicting (s v : State) (x : Arm) (freed : Nat) : Prop where
  grid : v.GridLaw
  tile : ∀ z, (s.tile z).EvictedTo (v.tile z) x.party
  count : freed + (countTiles fun z => (v.tile z).owner == some x.party) =
    countTiles fun z => (s.tile z).owner == some x.party
  closing : v.closing ≤ s.closing
  portC : v.portC = if 0 < s.closing ∧ v.closing = 0 then s.portC.raise .blockDone else s.portC
  slot : ∀ p k, p ≠ x.party → v.slot p k = s.slot p k
  trip : v.tripTiles x.other = s.tripTiles x.other
  frame : v = { s with tiles := v.tiles, closing := v.closing, portC := v.portC, claims := v.claims }

namespace State.Evicting

variable {s v u : State} {x : Arm} {m : Nat}

theorem refl (h : s.GridLaw) (x : Arm) : s.Evicting s x 0 where
  grid := h
  tile _ := .refl _ _
  count := Nat.zero_add _
  closing := le_rfl
  portC := (if_neg fun h => absurd h.2 h.1.ne').symm
  slot _ _ _ := rfl
  trip := rfl
  frame := rfl

/-- The release of a claim of the arm. -/
theorem step (h : s.Evicting v x m) {f : Tile → Bool} (hended : v.HoldsEnded u f) (hgrid : u.GridLaw)
    (hown : ∀ z, f z = true → (v.tile z).owner = some x.party) (hslot : ∀ p k, p ≠ x.party → u.slot p k = v.slot p k)
    (htrip : u.tripTiles x.other = v.tripTiles x.other) :
    s.Evicting u x (m + countTiles fun z => f z && decide ((v.tile z).hold ≤ 1)) := by
  obtain ⟨htile, ⟨hclosing, hport⟩, hframe⟩ := hended
  refine ⟨hgrid, fun z => ?_, ?_, by rw [hclosing]; exact (Nat.sub_le ..).trans h.closing, ?_,
    fun p k hp => (hslot p k hp).trans (h.slot p k hp), htrip.trans h.trip, ?_⟩
  · rw [htile]
    split_ifs with hz
    · exact (h.tile z).ended (hown z hz)
    · exact h.tile z
  · have hfreed : (countTiles fun z => ((v.tile z).owner == some x.party) && (f z && decide ((v.tile z).hold ≤ 1))) =
        countTiles fun z => f z && decide ((v.tile z).hold ≤ 1) := by
      refine congrArg countTiles (funext fun z => ?_)
      cases hz : f z with
      | false => simp
      | true => simp [hown z hz]
    have hleft : (countTiles fun z => ((v.tile z).owner == some x.party) && !(f z && decide ((v.tile z).hold ≤ 1))) =
        countTiles fun z => (u.tile z).owner == some x.party := by
      refine congrArg countTiles (funext fun z => ?_)
      rw [htile]
      cases hz : f z with
      | false => simp
      | true =>
        unfold TileRecord.ended
        by_cases hhold : 1 < (v.tile z).hold
        · simp [hhold]
        · simp [hhold, not_lt.mp hhold]
    rw [Nat.add_assoc, ← hfreed, ← hleft, ← countTiles_split]
    exact h.count
  · have hle := h.closing
    rw [hport, h.portC, hclosing]
    generalize (countTiles fun t => f t && decide ((v.tile t).hold ≤ 1) && (v.tile t).service == .closing) = n
    by_cases hv : v.closing = 0
    · simp [hv]
    · have hs : 0 < s.closing := by omega
      simp [hv, hs, Nat.pos_of_ne_zero hv, Nat.sub_eq_zero_iff_le]
  · rw [h.frame] at hframe
    exact hframe

theorem releaseSlot (h : s.Evicting v x m) {k : SlotNo} {r : Rect} (hheld : (v.slot x.party k).heldRect = some r) :
    s.Evicting (v.releaseSlot x.party k).1 x (m + (v.releaseSlot x.party k).2) := by
  have hfreed : (v.releaseSlot x.party k).2 = countTiles fun z => r.contains z && decide ((v.tile z).hold ≤ 1) := by
    rw [State.releaseSlot, hheld]; rfl
  rw [hfreed]
  have hsome : (v.slot x.party k).heldRect.isSome = true := by rw [hheld]; rfl
  refine h.step (State.holdsEnded_releaseSlot hheld) (h.grid.releaseSlot hsome) (fun z hz => h.grid.owner_of_heldRect hheld hz)
    (fun p j hp => ?_) (v.tripTiles_releaseSlot ..)
  rw [v.slot_releaseSlot x.party p k j hsome, if_neg hp]

theorem releaseTrip (h : s.Evicting v x m) : s.Evicting (v.releaseTrip x).1 x (m + (v.releaseTrip x).2) := by
  refine h.step (v.holdsEnded_releaseTrip x) (h.grid.releaseTrip x) (fun z hz => h.grid.owner_of_inTrip hz) (fun p k _ => ?_) ?_
  · simp [State.releaseTrip]
  · exact (State.tripTiles_setTripTiles_of_ne _ _ (Arm.other_ne x)).trans (by simp)

theorem evictSlot {acc : State × Nat × Nat} (h : s.Evicting acc.1 x acc.2.2) (k : SlotNo) :
    s.Evicting (Machine.evictSlot x.party acc k).1 x (Machine.evictSlot x.party acc k).2.2 := by
  unfold Machine.evictSlot
  split
  · exact h
  · exact h.releaseSlot ‹_›

theorem evictTrip {acc : State × Nat × Nat} (h : s.Evicting acc.1 x acc.2.2) :
    s.Evicting (Machine.evictTrip x acc).1 x (Machine.evictTrip x acc).2.2 := by
  unfold Machine.evictTrip
  split
  · exact h
  · exact h.releaseTrip

end State.Evicting

theorem State.evicting_evictClaims {s : State} (h : s.GridLaw) (x : Arm) :
    (s.cancelPending x.party .evict).Evicting (s.evictClaims x).1 x (s.evictClaims x).2.2 := by
  unfold State.evictClaims
  dsimp only
  refine State.Evicting.evictTrip (List.foldlRecOn
    (motive := fun acc : State × Nat × Nat => (s.cancelPending x.party .evict).Evicting acc.1 x acc.2.2) slotNos _ ?_
    fun acc hacc k _ => hacc.evictSlot k)
  exact .refl (h.cancelPending x.party .evict) x

/-! ### How many claims (R96) -/

theorem count_evictSlots (p : Party) {l : List SlotNo} (hl : l.Nodup) (acc : State × Nat × Nat) :
    (l.foldl (evictSlot p) acc).2.1 = acc.2.1 + l.countP fun k => (acc.1.slot p k).heldRect.isSome := by
  induction l generalizing acc with
  | nil => rfl
  | cons k l ih =>
    obtain ⟨hk, hl⟩ := List.nodup_cons.mp hl
    have hstep : (evictSlot p acc k).2.1 = acc.2.1 + (if (acc.1.slot p k).heldRect.isSome = true then 1 else 0) := by
      unfold evictSlot
      split
      · rename_i hnone; simp [hnone]
      · rename_i r hheld; simp [hheld]
    have hleft : (l.countP fun j => ((evictSlot p acc k).1.slot p j).heldRect.isSome) =
        l.countP fun j => (acc.1.slot p j).heldRect.isSome := by
      refine List.countP_congr fun j hj => ?_
      unfold evictSlot
      split
      · rfl
      · rename_i r hheld
        dsimp only
        rw [State.slot_releaseSlot _ _ _ _ _ (by rw [hheld]; rfl), if_pos rfl,
          if_neg fun he : j = k => hk (he ▸ hj), Claim.unlink_heldRect]
    rw [List.foldl_cons, ih hl, hstep, hleft, List.countP_cons, Nat.add_assoc, Nat.add_comm (ite _ _ _)]

theorem tripTiles_evictSlots (p : Party) (l : List SlotNo) (acc : State × Nat × Nat) (x : Arm) :
    (l.foldl (evictSlot p) acc).1.tripTiles x = acc.1.tripTiles x := by
  refine foldl_keeps (fun acc : State × Nat × Nat => acc.1.tripTiles x) (evictSlot p) (fun acc k => ?_) l acc
  unfold evictSlot
  split
  · rfl
  · exact State.tripTiles_releaseSlot ..

theorem tripTiles_cancelPending (s : State) (p : Party) (c : CancelCause) (x : Arm) :
    (s.cancelPending p c).tripTiles x = s.tripTiles x := by
  unfold State.cancelPending
  split
  · simp [State.removePending]
  · rfl

/-- A PENDING claim is the one that its party has in the queue. -/
theorem State.QueueOrder.pendingOf_of_pending {s : State} (h : s.QueueOrder) {p : Party} {k : SlotNo}
    (hk : (s.slot p k).state = .pending) : ∃ w, s.pendingOf p = some w ∧ w.name = ⟨p, k⟩ := by
  have hentry : (⟨p, k⟩ : ClaimName) ∈ s.queue := by
    rw [h.pending, State.arrivalOf, Claim.arrival_isSome]; exact hk
  cases hw : s.pendingOf p with
  | none => exact absurd rfl (h.party_ne_of_pendingOf_none hw hentry)
  | some w =>
    obtain ⟨hmem, hparty⟩ := State.pendingOf_some hw
    exact ⟨w, rfl, h.eq_of_party (State.mem_waiters.mp hmem).1 hentry hparty⟩

theorem State.QueueOrder.countP_pending {s : State} (h : s.QueueOrder) (p : Party) :
    (slotNos.countP fun k => decide ((s.slot p k).state = .pending)) = if (s.pendingOf p).isSome = true then 1 else 0 := by
  cases hw : s.pendingOf p with
  | none =>
    refine List.countP_eq_zero.mpr fun k _ => ?_
    rw [decide_eq_true_eq]
    intro hk
    obtain ⟨w, hw', -⟩ := h.pendingOf_of_pending hk
    rw [hw] at hw'
    cases hw'
  | some w =>
    obtain ⟨hmem, hparty⟩ := State.pendingOf_some hw
    have hpending : (s.slot p w.name.slot).state = .pending := by rw [← hparty, (State.mem_waiters.mp hmem).2]; rfl
    have hone (k : SlotNo) : (s.slot p k).state = .pending ↔ k = w.name.slot := by
      refine ⟨fun hk => ?_, fun hk => hk ▸ hpending⟩
      obtain ⟨v, hv, hname⟩ := h.pendingOf_of_pending hk
      rw [hw] at hv
      rw [Option.some.inj hv, hname]
    simp only [hone]
    generalize w.name.slot = j
    fin_cases j <;> rfl

/-- The claims of an eviction are those that stand in the slots of the arm. -/
theorem State.count_evictClaims {s : State} (h : s.QueueOrder) (x : Arm) : (s.evictClaims x).2.1 =
    slotNos.countP (fun k => decide (s.slot x.party k ≠ .empty)) + if s.tripTiles x = [] then 0 else 1 := by
  have htrip : (evictTrip x (slotNos.foldl (evictSlot x.party) (s.cancelPending x.party .evict,
      if (s.pendingOf x.party).isSome = true then 1 else 0, 0))).2.1 =
      (slotNos.foldl (evictSlot x.party) (s.cancelPending x.party .evict,
        if (s.pendingOf x.party).isSome = true then 1 else 0, 0)).2.1 + if s.tripTiles x = [] then 0 else 1 := by
    unfold evictTrip
    rw [tripTiles_evictSlots, tripTiles_cancelPending]
    split_ifs <;> rfl
  have hsplit : slotNos.countP (fun k => decide (s.slot x.party k ≠ .empty)) =
      (slotNos.countP fun k => decide ((s.slot x.party k).state = .pending)) +
        slotNos.countP fun k => ((s.cancelPending x.party .evict).slot x.party k).heldRect.isSome := by
    have hone (k : SlotNo) : (if decide (s.slot x.party k ≠ .empty) = true then 1 else 0) =
        (if decide ((s.slot x.party k).state = .pending) = true then 1 else 0) +
          if ((s.cancelPending x.party .evict).slot x.party k).heldRect.isSome = true then 1 else 0 := by
      by_cases hk : (s.slot x.party k).state = .pending
      · rw [(h.cancelled .evict hk).1]
        cases hc : s.slot x.party k <;> simp_all [Claim.state, Claim.heldRect]
      · rw [State.slot_cancelPending_of_left (.inl hk)]
        cases hc : s.slot x.party k <;> simp_all [Claim.state, Claim.heldRect]
    simp only [slotNos, List.countP_cons, List.countP_nil, hone]
    omega
  unfold State.evictClaims
  dsimp only
  rw [htrip, count_evictSlots _ (by decide), hsplit, h.countP_pending]

/-! ### The whole eviction (R127) -/

theorem State.QueueOrder.port_cancelPending {s : State} (h : s.QueueOrder) {p : Party} {k : SlotNo} (c : CancelCause)
    (hk : (s.slot p k).state = .pending) : (s.cancelPending p c).port p = (s.port p).raise (.cancelled k c) := by
  obtain ⟨w, hw, hname⟩ := h.pendingOf_of_pending hk
  simp only [State.cancelPending, hw, State.port_raise, port_removePending, hname]

theorem State.cancelPending_of_not_pending {s : State} {p : Party} (c : CancelCause)
    (h : ∀ k, (s.slot p k).state ≠ .pending) : s.cancelPending p c = s := by
  unfold State.cancelPending
  split
  · rename_i w hw
    obtain ⟨hmem, hparty⟩ := State.pendingOf_some hw
    refine absurd ?_ (h w.name.slot)
    rw [← hparty, (State.mem_waiters.mp hmem).2]
    rfl
  · rfl

theorem State.port_cancelPending_of_ne (s : State) {p q : Party} (c : CancelCause) (h : q ≠ p) :
    (s.cancelPending p c).port q = s.port q := by
  unfold State.cancelPending
  split
  · rw [State.port_raise_of_ne _ _ h, port_removePending]
  · rfl

/-- What the releases of an eviction leave is what `State.EvictedClaims` says. -/
theorem State.evictedClaims_evictClaims {s : State} (horder : s.QueueOrder) (hgrid : s.GridLaw) (x : Arm) :
    s.EvictedClaims (s.evictClaims x).1 x := by
  have h := State.evicting_evictClaims hgrid x
  set b := s.cancelPending x.party .evict with hb
  set w := (s.evictClaims x).1
  obtain ⟨hempty, htrip⟩ := State.slot_evictClaims horder x
  have hwOrder : w.QueueOrder := horder.moves ((State.Moves.refl s).evictClaims x)
  have howner (t : Tile) : (w.tile t).owner ≠ some x.party := h.grid.owner_ne_of_empty hempty htrip t
  have htile (t : Tile) : w.tile t = if (s.tile t).owner = some x.party then (s.tile t).stopped else s.tile t := by
    have hbt : b.tile t = s.tile t := by simp [hb]
    obtain ⟨hother, hown⟩ := h.tile t
    rw [hbt] at hother hown
    split_ifs with hx
    · exact (hown hx).resolve_right fun hkept => howner t hkept.1
    · exact hother hx
  have hclosing : w.closing = s.closing - countTiles fun t =>
      (s.tile t).owner == some x.party && (s.tile t).service == .closing := by
    have hbefore := hgrid.ground.closing
    have hafter := h.grid.ground.closing
    rw [State.ClosingLaw] at hbefore hafter
    rw [countTiles_split _ fun t => (s.tile t).owner == some x.party] at hbefore
    have hleft : (countTiles fun t => (s.tile t).service == .closing && !((s.tile t).owner == some x.party)) =
        countTiles fun t => (w.tile t).service == .closing := by
      refine congrArg countTiles (funext fun t => ?_)
      rw [htile]
      by_cases hx : (s.tile t).owner = some x.party
      · cases hs : (s.tile t).service <;> simp [hx, hs, TileRecord.stopped]
      · simp [hx]
    have hcomm : (countTiles fun t => (s.tile t).service == .closing && ((s.tile t).owner == some x.party)) =
        countTiles fun t => (s.tile t).owner == some x.party && (s.tile t).service == .closing :=
      congrArg countTiles (funext fun t => Bool.and_comm ..)
    rw [hleft, hcomm] at hbefore
    omega
  have hbClosing : b.closing = s.closing := by simp [hb]
  have hbPortC : b.portC = s.portC := s.port_cancelPending_of_ne .evict (q := .C) (Arm.party_ne_C x).symm
  have hport (p : Party) (hp : p ≠ .C) : w.port p = b.port p := by
    have hframe := congrArg (fun v : State => v.port p) h.frame
    cases p with
    | A | B => exact hframe
    | C => exact absurd rfl hp
  have hne : x.other.party ≠ x.party := fun he => Arm.other_ne x (Arm.party_injective he)
  refine ⟨hempty, fun p k hp => (h.slot p k hp).trans (State.slot_cancelPending_of_left (.inr hp)), htrip,
    h.trip.trans (tripTiles_cancelPending ..), ?_, htile, hclosing, ?_, fun k hk => ?_, fun hnone => ?_, ?_, ?_⟩
  · have hqueue := congrArg State.queue h.frame
    exact hqueue.trans (horder.queue_cancelPending ..)
  · rw [h.portC, hbClosing, hbPortC, hclosing]
    simp only [Nat.sub_eq_zero_iff_le]
  · rw [hport _ (Arm.party_ne_C x), hb, horder.port_cancelPending .evict hk]
  · rw [hport _ (Arm.party_ne_C x), hb, State.cancelPending_of_not_pending .evict hnone]
  · rw [hport _ (Arm.party_ne_C _), hb, s.port_cancelPending_of_ne .evict hne]
  · have hA : w.armA = s.armA := arm_evictClaims s x .A
    have hB : w.armB = s.armB := arm_evictClaims s x .B
    exact ((State.Moves.refl s).evictClaims x).controlKept.trans (by rw [hA, hB])

/-- The number of tiles that an eviction frees is that of the tiles that the arm owned. -/
theorem State.freed_evictClaims {s : State} (horder : s.QueueOrder) (hgrid : s.GridLaw) (x : Arm) :
    (s.evictClaims x).2.2 = countTiles fun t => (s.tile t).owner == some x.party := by
  have h := State.evicting_evictClaims hgrid x
  obtain ⟨hempty, htrip⟩ := State.slot_evictClaims horder x
  have hnone : (countTiles fun t => ((s.evictClaims x).1.tile t).owner == some x.party) = 0 :=
    countTiles_eq_zero.mpr fun t => by simpa using h.grid.owner_ne_of_empty hempty htrip t
  have hcount := h.count
  rw [hnone, Nat.add_zero] at hcount
  rw [hcount]
  exact congrArg countTiles (funext fun t => by simp)

theorem evictRequest_of_evictable {s : State} {arm : Byte} {x : Arm} (harm : armOfCode arm = some x)
    (hx : s.guardState x = .arming ∨ s.guardState x = .tripped) : evictRequest arm s = s.evicts x := by
  rw [evictRequest, harm]
  obtain hx | hx := hx <;> simp only [hx]

theorem evictRequest_of_not_evictable {s : State} {arm : Byte} {x : Arm} (harm : armOfCode arm = some x)
    (hx : s.guardState x = .live ∨ s.guardState x = .offline) : evictRequest arm s = (s, ⟨.notTripped, false, .empty⟩) := by
  rw [evictRequest, harm]
  obtain hx | hx := hx <;> simp only [hx, refuse]

/-- Settles O38: the releases leave what `State.EvictedClaims` says, and the scan reaches no slot of the evicted arm. -/
theorem evictFreesTheArm : Obligations.EvictFreesTheArm := by
  unfold Obligations.EvictFreesTheArm
  intro tag arm s htaken
  have hexec := exec_evict tag arm htaken
  refine ⟨fun h => ?_, fun x h => ?_⟩
  · rw [evictRequest, armOfCode_of_two_le h] at hexec
    exact hexec
  have harm : armOfCode arm = some x := by
    cases x
    · exact armOfCode_A h
    · exact armOfCode_B h
  refine ⟨fun hx => ?_, fun hx hlaw => ?_⟩
  · rw [evictRequest_of_not_evictable harm hx] at hexec
    exact hexec
  rw [evictRequest_of_evictable harm hx] at hexec
  have horder := hlaw.queue.order
  have hgrid := hlaw.gridLaw
  have hmoves := (State.Moves.refl s).evictClaims x
  have hclaims := State.evictedClaims_evictClaims horder hgrid x
  obtain ⟨hempty, htrip⟩ := State.slot_evictClaims horder x
  set w := (s.evictClaims x).1 with hw
  have hwOrder : w.QueueOrder := horder.moves hmoves
  have hscan := hmoves.grantScan
  set u := (w.grantScan.goOffline x).raise x.party (.evicted (s.guardState x)) with hu
  have hevicts : s.evicts x = (u, ⟨.done, false, .evicted x (s.guardState x) (s.evictClaims x).2.1 (s.evictClaims x).2.2⟩) := rfl
  rw [hevicts, State.freed_evictClaims horder hgrid x] at hexec
  have hslot (k : SlotNo) : w.grantScan.slot x.party k = .empty :=
    (State.slot_grantScan_of_no_entry (hwOrder.no_entry hempty) k).trans (hempty k)
  have htripScan (y : Arm) : w.grantScan.tripTiles y = w.tripTiles y := State.tripTiles_grantScan w y
  have hgrid' : w.grantScan.GridLaw := hgrid.moves hscan
  have harmX : u.arm x = (s.arm x).offline := by
    rw [hu, State.arm_raise, State.arm_goOffline_same, arm_grantScan, hw, arm_evictClaims]
  refine ⟨u, (s.evictClaims x).2.1, hexec, State.count_evictClaims horder x, harmX, fun k => ?_, ?_, fun t => ⟨?_, ?_⟩,
    fun k hk => ?_, ?_, ?_, ?_, ?_, ?_, w, hclaims, ?_⟩
  · rw [hu, State.slot_raise, slot_goOffline, hslot]
  · rw [hu, State.tripTiles_raise, tripTiles_goOffline, htripScan, htrip]
  · rw [hu, State.tile_raise, tile_goOffline]
    exact hgrid'.owner_ne_of_empty hslot ((htripScan x).trans htrip) t
  · rw [hu, State.tile_raise, tile_goOffline]
    exact (hscan.aged t).1
  · obtain ⟨-, -, -, -, -, -, -, -, hport, -⟩ := hclaims
    have hcancelled : Notice.cancelled k .evict ∈ (w.port x.party).attention := by
      rw [hport k hk]; exact mem_insertNotice_self ..
    rw [hu, State.port_raise, port_goOffline]
    exact mem_insertNotice_of_ne ((State.mem_attention_grantScan (by simp [Notice.code])).mpr hcancelled) (by simp [Notice.code])
  · exact State.mem_attention_raise ..
  · rw [hu, State.arm_raise, State.arm_goOffline_of_ne _ (Arm.other_ne x), arm_grantScan, hw, arm_evictClaims]
  · obtain ⟨-, -, -, hother, -⟩ := hclaims
    rw [hu, State.tripTiles_raise, tripTiles_goOffline, htripScan, hother]
  · have hoffline : w.grantScan.ControlKept (w.grantScan.goOffline x) := by cases x <;> rfl
    have hraised : (w.grantScan.goOffline x).ControlKept u := by cases x <;> rfl
    exact State.controlKept_trans (State.controlKept_trans hscan.controlKept hoffline) hraised
  · exact ((State.noneGrantable_grantScan hwOrder).of_same (by simp) (fun p k => by simp) fun t => by simp).raise _ _
  · rw [harmX, hu]
    have hoffline : w.grantScan.goOffline x = w.grantScan.setArm x (s.arm x).offline := by
      have hsame : (w.grantScan.arm x).offline = (s.arm x).offline := by rw [arm_grantScan, hw, arm_evictClaims]
      rw [← hsame]
      rfl
    rw [hoffline]

end Sys2Proof.Machine
end

section
/-! SUPPORT. The layout of a reply (R166 to R169). -/

namespace Sys2Proof.Machine

open Sys2Proof

/-! ### Items -/

theorem or_flags (a b c : Bool) :
    byte ((if a then 1 else 0) + (if b then 2 else 0) + (if c then 4 else 0)) = flag a ||| flag b <<< 1 ||| flag c <<< 2 := by
  cases a <;> cases b <;> cases c <;> rfl

theorem or_two_flags (a b : Bool) :
    byte ((if a then 1 else 0) + (if b then 2 else 0)) = flag a ||| flag b <<< 1 := by
  cases a <;> cases b <;> rfl

/-- The four bytes of a signed number spell its two's complement (R166). -/
theorem bytes4_spells (i : Int) :
    ∃ b3 b2 b1 b0 : Byte, bytes4 i = [b3, b2, b1, b0] ∧ b3 ++ b2 ++ b1 ++ b0 = BitVec.ofInt 32 i := by
  refine ⟨_, _, _, _, rfl, ?_⟩
  generalize BitVec.ofInt 32 i = w
  ext j hj
  simp only [BitVec.getElem_append, BitVec.getElem_extractLsb']
  split_ifs <;> simp only [← BitVec.getLsbD_eq_getElem] <;> congr 1 <;> omega

/-- An attention entry takes four bytes, of which the first is its kind code (R166). -/
theorem Notice.length_bytes (n : Notice) : n.bytes.length = 4 := by
  simp [Notice.bytes]

theorem length_counted_notices (ns : List Notice) : (counted ns Notice.bytes).length = 1 + 4 * ns.length := by
  simp [counted, List.length_flatMap, Notice.length_bytes]
  omega

/-! ### The frame of a reply -/

section Framed

variable (kind : Byte) (fields : List Byte)

theorem length_framedReply : (framedReply kind fields).length = fields.length + 3 := by
  simp [framedReply]

theorem xorAll_framedReply : xorAll (framedReply kind fields) = 0 := xorAll_checked _

theorem drop_framedReply {n : Nat} (hn : n ≤ fields.length) :
    ∃ check, (framedReply kind fields).drop (n + 2) = fields.drop n ++ [check] := by
  refine ⟨xorAll (kind :: byte (fields.length + 3) :: fields), ?_⟩
  simp only [framedReply, List.cons_append, List.drop_succ_cons]
  exact List.drop_append_of_le_length hn

theorem getElem?_framedReply {n : Nat} (hn : n < fields.length) : (framedReply kind fields)[n + 2]? = fields[n]? := by
  simp only [framedReply, List.cons_append, List.getElem?_cons_succ]
  exact List.getElem?_append_left hn

theorem length_byte_framedReply (h : fields.length + 3 ≤ 255) :
    ∃ n, (framedReply kind fields)[1]? = some n ∧ n.toNat = (framedReply kind fields).length := by
  refine ⟨byte (fields.length + 3), rfl, ?_⟩
  rw [length_framedReply, byte, BitVec.toNat_ofNat]
  omega

end Framed

/-- The fields of a reply after its six fixed ones: the status block, the attention entries and the payload. -/
def ReplyBody.tail (b : ReplyBody) : List Byte :=
  b.status.bytes ++ byte b.attention.length :: b.attention.flatMap Notice.bytes ++
    byte b.payload.bytes.length :: b.payload.bytes

theorem ReplyBody.bytes_eq (b : ReplyBody) :
    b.bytes = ((0 : BitVec 4) ++ b.tag : Byte) :: b.kind :: byte b.result.code :: b.marks :: byte b.mode.code :: b.epoch ::
      b.tail := by
  simp [ReplyBody.bytes, ReplyBody.tail, counted]

theorem bytes_cellStatus (ga gb : GuardState) (pa pb : Bool) (slots : List SlotState) (n : Nat) :
    (StatusBlock.cell ga gb pa pb slots n).bytes =
      [byte ga.code, byte gb.code, flag pa ||| flag pb <<< 1] ++ (slots.map fun st => byte st.code) ++ [byte n] := by
  rw [StatusBlock.bytes, or_two_flags]

theorem toNat_tagByte (tag : BitVec 4) : ((0 : BitVec 4) ++ tag : Byte).toNat = tag.toNat := by
  rw [BitVec.toNat_append]
  simp

end Sys2Proof.Machine

open Sys2Proof Sys2Proof.Machine

/-- Settles O20, item by item from the bytes of the model. -/
theorem replyFraming : Obligations.ReplyFraming := by
  unfold Obligations.ReplyFraming
  intro num bit guardCode slotCode modeCode armCode partyByte causes results two rect setOf item record kindCode
  have hguard (g : GuardState) : byte g.code = guardCode g := by cases g <;> rfl
  have hslot (st : SlotState) : byte st.code = slotCode st := by cases st <;> rfl
  have hslots : (fun st : SlotState => byte st.code) = slotCode := funext hslot
  have hmode (m : Mode) : byte m.code = modeCode m := by cases m <;> rfl
  have harm (x : Arm) : byte (Machine.partyCode x.party) = armCode x := by cases x <;> rfl
  have hparty (p : Party) : byte (Machine.partyCode p) = partyByte p := by cases p <;> rfl
  have hkind : (fun k : ProbeKind => [byte k.code]) = fun k => [kindCode k] := by funext k; cases k <;> rfl
  have hset (w : PartySet) : w.byte = setOf w := or_flags w.a w.b w.c
  have hrecord : TileRecord.bytes = record := by
    funext ⟨service, speed, owner, hold⟩
    rcases service <;> rcases owner with _ | _ | _ | _ <;> rfl
  have hitem {α : Type} (n : Nat) (o : Option α) (f : α → List Byte) : Machine.optional n o f = item n (o.map f) := by
    cases o <;> rfl
  have hcause (c : Cause) : (c, byte c.code) ∈ causes := by cases c <;> simp [causes, byte, Cause.code]
  have hresult (r : Result) : (r, byte r.code) ∈ results := by cases r <;> simp [results, byte, Result.code]
  refine ⟨fun b hb => ?_, fun n => ⟨n.length_bytes, rfl⟩, fun k => ?_, fun c => rfl, fun c => ⟨_, rfl, hcause c⟩,
    fun g => ?_, fun m => ?_, fun _ => rfl, rfl, fun _ _ => rfl, fun x => ?_, rfl, ?_, ?_, ?_, ?_, bytes4_spells, rfl, ?_, ?_⟩
  · have hbytes := b.bytes_eq
    have hsix : 6 ≤ b.bytes.length := by rw [hbytes]; simp only [List.length_cons]; omega
    refine ⟨fun r hr => ?_, rfl, rfl, length_counted_notices _⟩
    obtain ⟨kind, hframe⟩ : ∃ kind, r.bytes = framedReply kind b.bytes := by
      rcases hr with rfl | rfl <;> exact ⟨_, rfl⟩
    have hfield (n : Nat) (hn : n < b.bytes.length) := getElem?_framedReply kind b.bytes hn
    rw [hframe]
    refine ⟨length_framedReply _ _, length_byte_framedReply _ _ hb, xorAll_framedReply _ _, ?_, ⟨(0 : BitVec 4) ++ b.tag, ?_, ?_⟩, ?_,
      ⟨_, ?_, hresult b.result⟩, ?_, ?_, ?_, ?_⟩
    · obtain ⟨check, hdrop⟩ := drop_framedReply kind b.bytes (n := 0) (Nat.zero_le _)
      rw [hdrop]
      simp
    · rw [hfield 0 (by omega), hbytes]; rfl
    · exact toNat_tagByte _
    · rw [hfield 1 (by omega), hbytes]; rfl
    · rw [hfield 2 (by omega), hbytes]; rfl
    · rw [hfield 3 (by omega), hbytes]
      exact congrArg some (or_flags b.exception b.normalized b.lineAsserted)
    · rw [hfield 4 (by omega), hbytes, ← hmode]; rfl
    · rw [hfield 5 (by omega), hbytes]; rfl
    · obtain ⟨check, hdrop⟩ := drop_framedReply kind b.bytes hsix
      refine ⟨check, hdrop.trans ?_⟩
      rw [hbytes]
      simp only [List.drop_succ_cons, List.drop_zero, ReplyBody.tail]
      rcases hs : b.status with ⟨g, p, c, m, slots⟩ | ⟨ga, gb, pa, pb, slots, n⟩
      · rw [StatusBlock.bytes, hguard, hslots]; rfl
      · rw [bytes_cellStatus, hguard, hguard, hslots]; rfl
  · exact ⟨rfl, rfl, fun _ => rfl, rfl, rfl, rfl, fun p => by rw [← hparty]; rfl, rfl⟩
  · rw [← hguard]; rfl
  · rw [← hmode]; exact ⟨rfl, rfl⟩
  · rw [← harm]; exact ⟨rfl, fun _ => rfl⟩
  · refine ⟨rfl, fun codes => ?_, fun recs => ?_, fun _ _ => ⟨rfl, rfl, rfl, rfl, rfl⟩, fun _ _ => rfl, fun _ => rfl,
      fun k r w => ⟨rfl, ?_⟩, fun t k r w => ?_, fun t k r o n => ⟨byte o.code, rfl⟩, fun k st n => ?_,
      fun g => ⟨?_, fun e => ?_⟩, fun _ => rfl, fun m c n => ?_, fun x g c n => ?_, fun n arms => ⟨_, rfl⟩,
      fun c => ⟨_, rfl, hcause c⟩⟩
    · rw [List.map_eq_flatMap]; rfl
    · exact ⟨[byte recs.length], by rw [← hrecord]; rfl, le_rfl⟩
    · rw [← hset]; rfl
    · rw [← hset]; rfl
    · rw [← hslot]; rfl
    · rw [← hguard]; rfl
    · rw [← hguard]; rfl
    · rw [← hmode]; rfl
    · rw [← hguard, ← harm]; rfl
  · exact fun views => ⟨rfl, fun v => ⟨optional 1 v.source fun k => [byte k.val], by rw [← hset, ← hparty]; rfl⟩⟩
  · intro views
    refine ⟨[byte views.length], rfl, le_rfl, fun v => ⟨optional 1 v.trip fun b => [flag b],
      optional 5 v.tiles fun q => byte q.1 :: q.2.bytes, ?_, fun hv => by rw [hv]; rfl, fun hv => ?_⟩⟩
    · rw [← hslot, ← hitem, ← hitem, ← hitem, ← hitem, ← hitem]
      simp only [ClaimView.bytes, List.cons_append, List.append_assoc]
      rfl
    · obtain ⟨b, hb⟩ := Option.ne_none_iff_exists'.mp hv
      exact ⟨flag b, by rw [hb]; rfl⟩
  · intro v
    refine ⟨optional 1 v.joined fun e => [e], optional 19 v.lastReport Report.bytes,
      optional 1 v.lastCount fun c => [byte c.toNat], optional 71 v.evaluation Evaluation.bytes ++ [byte v.tripTiles], ?_,
      fun e he => by rw [he]; rfl, fun rep hrep => by rw [hrep]; rfl, fun c hc => by rw [hc]; rfl⟩
    rw [← hguard]
    simp [Payload.bytes, ArmView.bytes, num, byte]
  · intro t
    refine ⟨byte t.cause.code, optional 16 t.rect fun e => bytes4 e.xLo ++ bytes4 e.xHi ++ bytes4 e.yLo ++ bytes4 e.yHi,
      hcause _, ?_, fun e he => ⟨[], [], [], ?_, by simp⟩⟩
    · rw [← hitem, ← hitem, ← hitem, ← hitem, ← hkind]
      simp only [Payload.bytes, tripBytes, List.append_assoc, List.cons_append, List.nil_append]
      rfl
    · rw [he]
      simp [Machine.optional]
  · exact fun s => ⟨fun x => by cases x <;> rfl, rfl⟩
end

section
/-! SUPPORT. What a grant scan leaves (R66, R67, R87 to R90, R107 to R109). -/

namespace Sys2Proof.Machine

open Sys2Proof

/-! ### One grant of a scan -/

theorem State.dropHolds_of_false (s : State) {f : Tile → Bool} (hf : ∀ t, f t = false) : s.dropHolds f = s := by
  have hcount : (countTiles fun t => f t && (s.tile t).lastHold && (s.tile t).service == .closing) = 0 :=
    countTiles_eq_zero.mpr fun t => by simp [hf]
  have htiles : (s.tiles.update fun t r => if f t then r.dropHold else r) = s.tiles :=
    TileMap.ext_get fun t => by simp [hf]
  unfold State.dropHolds
  rw [State.lowerClosing_eq, hcount, htiles]
  dsimp only
  rw [if_neg (by omega)]
  rfl

/-- The CLOSING tiles that lose their last hold (R15). -/
def State.closedBy (s : State) (f : Tile → Bool) : Nat :=
  countTiles fun t => f t && (s.tile t).lastHold && (s.tile t).service == .closing

theorem State.closedBy_congr {s t : State} {f : Tile → Bool}
    (h : ∀ z, f z = true → t.tile z = s.tile z ∨ (t.tile z).service = .opened ∧ (s.tile z).service = .opened) :
    t.closedBy f = s.closedBy f := by
  unfold State.closedBy
  congr 1
  funext z
  cases hz : f z with
  | false => rfl
  | true =>
    obtain hsame | ⟨ht, hs⟩ := h z hz
    · rw [hsame]
    · rw [ht, hs, show (Service.opened == Service.closing) = false from rfl, Bool.and_false, Bool.and_false]

theorem State.port_dropHolds (s : State) (f : Tile → Bool) (p : Party) : (s.dropHolds f).port p =
    if p = .C ∧ 0 < s.closing ∧ s.closing ≤ s.closedBy f then (s.port p).raise .blockDone else s.port p := by
  unfold State.dropHolds
  rw [State.lowerClosing_eq]
  cases p
  · simp [State.port]
  · simp [State.port]
  · simp only [true_and]
    rfl

/-- What a loss of holds leaves depends on the tiles, the closing-tile count and the ports alone. -/
theorem State.dropHolds_congr {s t : State} {f : Tile → Bool} (hclosed : t.closedBy f = s.closedBy f)
    (hclosing : t.closing = s.closing) :
    (t.dropHolds f).closing = (s.dropHolds f).closing ∧
      ∀ p, t.port p = s.port p → (t.dropHolds f).port p = (s.dropHolds f).port p := by
  refine ⟨?_, fun p hp => ?_⟩
  · rw [State.closing_dropHolds, State.closing_dropHolds, hclosing]
    exact congrArg (s.closing - ·) hclosed
  · rw [State.port_dropHolds, State.port_dropHolds, hclosing, hclosed, hp]

/-- The tiles of the source that the grant of a shift target of party C releases (R109). -/
def State.sourceTiles (s : State) (w : Waiter) (t : Tile) : Bool :=
  decide (w.name.party = .C) && (w.link.bind fun k => (s.slot .C k).heldRect).any (·.contains t)

/-- A grant over the grid and the ports of `v` (R67). -/
structure State.GrantedOver (v u : State) (w : Waiter) : Prop where
  tile : ∀ t, u.tile t = if w.rect.contains t = true then (v.tile t).addHold w.name.party else v.tile t
  closing : u.closing = v.closing
  port : u.port w.name.party = (v.port w.name.party).raise (.granted w.name.slot)
  port_of_ne : ∀ p, p ≠ w.name.party → u.port p = v.port p

/-- A tile that loses a hold and gains one of its owner is as it was. -/
theorem TileRecord.dropHold_addHold {r : TileRecord} {p : Party} (howner : r.owner = some p) (hold : r.hold ≠ 0)
    (hopened : r.service = .opened) : (r.addHold p).dropHold = r.dropHold.addHold p := by
  obtain ⟨service, speed, owner, n⟩ := r
  dsimp only at howner hold hopened
  subst howner hopened
  by_cases hn : n ≤ 1
  · obtain rfl : n = 1 := by omega
    rfl
  · simp [TileRecord.addHold, TileRecord.dropHold, TileRecord.lastHold, hn, hold]
    omega

namespace State.GridLaw

variable {u : State} {w : Waiter}

theorem hold_ne_zero (h : u.GridLaw) {p : Party} {z : Tile} (hz : (u.tile z).owner = some p) : (u.tile z).hold ≠ 0 := by
  obtain ⟨hfree, -⟩ := h.ground.tiles z
  intro hzero
  rw [hfree.mpr hzero] at hz
  cases hz

theorem sourceTiles_eq (h : u.GridLaw) (hw : u.waiter w.name = some w) (hC : w.name.party = .C) {j : SlotNo}
    (hj : w.link = some j) : ∃ q, u.slot .C j = .held q none ∧ j ≠ w.name.slot ∧ u.sourceTiles w = q.contains := by
  obtain ⟨q, hsource, hne⟩ := h.source_of_waiter hw hj
  rw [hC] at hsource
  refine ⟨q, hsource, hne, funext fun t => ?_⟩
  simp [State.sourceTiles, hC, hj, hsource, Claim.heldRect]

theorem sourceTiles_of_not (hC : ¬(w.name.party = .C ∧ w.link.isSome = true)) (t : Tile) : u.sourceTiles w t = false := by
  unfold State.sourceTiles
  by_cases hp : w.name.party = .C
  · rw [Option.not_isSome_iff_eq_none.mp fun hlink => hC ⟨hp, hlink⟩]
    simp
  · simp [hp]

end State.GridLaw

theorem State.GrantedOver.raise {v g : State} {w : Waiter}
    (htile : ∀ t, g.tile t = if w.rect.contains t = true then (v.tile t).addHold w.name.party else v.tile t)
    (hclosing : g.closing = v.closing) (hport : ∀ p, g.port p = v.port p) :
    v.GrantedOver (g.raise w.name.party (.granted w.name.slot)) w where
  tile t := (State.tile_raise ..).trans (htile t)
  closing := by simpa using hclosing
  port := by rw [State.port_raise, hport]
  port_of_ne p hp := by rw [State.port_raise_of_ne _ _ hp, hport]

theorem State.grantedOver_holdTarget (u : State) (w : Waiter) (l : Option SlotNo) :
    (∀ t, (u.holdTarget w.name w.rect l).tile t =
      if w.rect.contains t = true then (u.tile t).addHold w.name.party else u.tile t) ∧
    (u.holdTarget w.name w.rect l).closing = u.closing ∧ ∀ p, (u.holdTarget w.name w.rect l).port p = u.port p :=
  ⟨fun t => by rw [State.tile_holdTarget, State.tile_addHolds], by simp [State.holdTarget],
    fun p => by simp [State.holdTarget]⟩

namespace State.GridLaw

variable {u : State} {w : Waiter}

/-- A grant lays the tiles of its claim over the grid that the release of its source leaves (R67, R69, R109). -/
theorem grantedOver (h : u.GridLaw) (hw : u.waiter w.name = some w)
    (hg : u.grantable w.name.party w.rect w.wait.arrival = true) :
    (u.dropHolds (u.sourceTiles w)).GrantedOver (u.grantEntry w) w := by
  obtain ⟨htile, hclosing, hport⟩ := u.grantedOver_holdTarget w w.link
  unfold State.grantEntry
  by_cases hC : w.name.party = .C ∧ w.link.isSome = true
  · obtain ⟨hp, hlink⟩ := hC
    obtain ⟨j, hj⟩ := Option.isSome_iff_exists.mp hlink
    obtain ⟨q, hsource, hne, htiles⟩ := h.sourceTiles_eq hw hp hj
    rw [hj] at htile hclosing hport ⊢
    rw [State.grant_cell _ _ _ hp, htiles]
    have hsourceNew : (u.holdTarget w.name w.rect (some j)).slot .C j = .held q none := by
      rw [State.slot_holdTarget, if_neg fun he => hne he.2, hsource]
    generalize u.holdTarget w.name w.rect (some j) = v at *
    have hclosed : v.closedBy q.contains = u.closedBy q.contains := State.closedBy_congr fun z _ => by
      by_cases hz : w.rect.contains z = true
      · right
        rw [htile, if_pos hz]
        exact ⟨(State.tile_of_grantable hg hz).1, (State.tile_of_grantable hg hz).1⟩
      · left; rw [htile, if_neg hz]
    obtain ⟨hdropClosing, hdropPort⟩ := State.dropHolds_congr hclosed hclosing
    have hrelease : (v.releaseSlot .C j).1 =
        ((v.dropHolds q.contains).mapSlots .C (Claim.unlink j)).setSlot .C j .empty := by
      unfold State.releaseSlot
      rw [hsourceNew]
      rfl
    rw [hrelease]
    refine .raise (fun t => ?_) (by simpa using hdropClosing) fun p => by simpa using hdropPort p (hport p)
    simp only [State.tile_setSlot, State.tile_mapSlots, State.tile_dropHolds, htile]
    by_cases ht : w.rect.contains t = true
    · rw [if_pos ht, if_pos ht]
      split_ifs with hq
      · rw [hp]
        have howner := h.owner_of_heldRect (by rw [hsource]; rfl) hq
        exact TileRecord.dropHold_addHold howner (h.hold_ne_zero howner) (State.tile_of_grantable hg ht).1
      · rfl
    · rw [if_neg ht, if_neg ht]
  · rw [u.dropHolds_of_false (sourceTiles_of_not hC)]
    cases hj : w.link with
    | none => rw [hj] at htile hclosing hport; exact .raise htile hclosing hport
    | some j =>
      rw [hj] at htile hclosing hport
      rw [State.grant_arm _ _ _ fun hp => hC ⟨hp, by rw [hj]; rfl⟩]
      exact .raise (fun t => by simpa using htile t) (by simpa using hclosing) fun p => by simpa using hport p

/-! ### The slots after a grant -/

theorem link_ne_of_source (h : u.GridLaw) {j : SlotNo} {q : Rect} (hsource : u.slot .C j = .held q none) {i : SlotNo}
    (hi : (u.slot .C i).state ≠ .pending) : (u.slot .C i).link ≠ some j := by
  intro hlink
  obtain ⟨-, hheld, hdraining⟩ := h.slots.links .C i j hlink
  cases hstate : (u.slot .C i).state with
  | empty => rw [Claim.state_eq_empty.mp hstate] at hlink; cases hlink
  | pending => exact hi hstate
  | held => rw [hsource] at hheld; exact absurd (hheld hstate).1 (by simp [Claim.state])
  | draining => exact (hdraining hstate).1 rfl

theorem slot_grantEntry (h : u.GridLaw) (hw : u.waiter w.name = some w) :
    (u.grantEntry w).slot w.name.party w.name.slot = .held w.rect (if w.name.party = .C then none else w.link) ∧
    (∀ k r l, w.link = some k → u.slot w.name.party k = .held r l →
      (u.grantEntry w).slot w.name.party k = if w.name.party = .C then .empty else .draining r w.name.slot) ∧
    ∀ p k, (p = w.name.party → k ≠ w.name.slot ∧ w.link ≠ some k) → (u.grantEntry w).slot p k = u.slot p k := by
  unfold State.grantEntry
  simp only [State.slot_raise]
  have hpending := (State.waiter_eq_some.mp hw).2
  cases hj : w.link with
  | none =>
    refine ⟨?_, ⟨fun k r l hk _ => (Option.some_ne_none k hk.symm).elim, fun p k hne => ?_⟩⟩
    · rw [State.grant_none, State.slot_holdTarget, if_pos ⟨rfl, rfl⟩, ite_self]
    · rw [State.grant_none, State.slot_holdTarget, if_neg fun he => (hne he.1).1 he.2]
  | some j =>
    obtain ⟨q, hsource, hneq⟩ := h.source_of_waiter hw hj
    have hsourceNew (l : Option SlotNo) : (u.holdTarget w.name w.rect l).slot w.name.party j = .held q none := by
      rw [State.slot_holdTarget, if_neg fun he => hneq he.2, hsource]
    by_cases hp : w.name.party = .C
    · have hslot (p : Party) (k : SlotNo) : (u.grant w.name w.rect (some j)).1.slot p k =
          if p = .C then if k = j then .empty else ((u.holdTarget w.name w.rect (some j)).slot .C k).unlink j
          else (u.holdTarget w.name w.rect (some j)).slot p k := by
        rw [hp] at hsourceNew
        rw [State.grant_cell _ _ _ hp, State.slot_releaseSlot _ _ _ _ _ (by rw [hsourceNew]; rfl)]
      simp only [hslot, if_pos hp]
      refine ⟨?_, fun k r l hk _ => ?_, fun p k hne => ?_⟩
      · rw [if_neg hneq.symm, State.slot_holdTarget, if_pos ⟨hp.symm, rfl⟩]
        simp [Claim.unlink]
      · obtain rfl : j = k := by simpa using hk
        rw [if_pos rfl]
      · split_ifs with hC hk
        · exact absurd (congrArg some hk.symm) (hne (hC.trans hp.symm)).2
        · subst hC
          have hslotNe := (hne hp.symm).1
          rw [State.slot_holdTarget, if_neg fun he => hslotNe he.2]
          refine Claim.unlink_of_link_ne (h.link_ne_of_source (hp ▸ hsource) fun hstate => ?_)
          exact hslotNe (h.slots.onePending .C k w.name.slot hstate (by rw [← hp, hpending]; rfl))
        · rw [State.slot_holdTarget, if_neg fun he => hC (he.1.trans hp)]
    · have hslot (p : Party) (k : SlotNo) : (u.grant w.name w.rect (some j)).1.slot p k =
          if p = w.name.party ∧ k = j then .draining q w.name.slot
          else (u.holdTarget w.name w.rect (some j)).slot p k := by
        rw [State.grant_arm _ _ _ hp, State.startDrain_of_held (hsourceNew _), State.slot_setSlot_eq]
      simp only [hslot, if_neg hp]
      refine ⟨?_, fun k r l hk hheld => ?_, fun p k hne => ?_⟩
      · rw [if_neg fun he => hneq he.2.symm, State.slot_holdTarget, if_pos ⟨rfl, rfl⟩]
      · obtain rfl : j = k := by simpa using hk
        rw [hsource] at hheld
        cases hheld
        rw [if_pos ⟨trivial, rfl⟩]
      · rw [if_neg fun he => (hne he.1).2 (congrArg some he.2.symm), State.slot_holdTarget,
          if_neg fun he => (hne he.1).1 he.2]

end State.GridLaw

end Sys2Proof.Machine
end

section
/-! SUPPORT. A grant scan as the grants of its claims, one after another (R88 to R90). -/

namespace Sys2Proof.Machine

open Sys2Proof

/-- Two rectangles of the grid that overlap share a tile. -/
theorem Params.RectLaw.exists_shared {ps : Params} (hps : ps.Law) {q r : Rect} (h : ps.RectLaw r)
    (hover : q.overlaps r = true) : ∃ z, q.contains z = true ∧ r.contains z = true := by
  obtain ⟨⟨-, hncol⟩, ⟨-, hnrow⟩, -⟩ := hps
  obtain ⟨-, hcol, -, hrow⟩ := h
  simp only [Rect.overlaps, Bool.and_eq_true, decide_eq_true_eq] at hover
  refine ⟨⟨⟨max q.col0 r.col0, by omega⟩, ⟨max q.row0 r.row0, by omega⟩⟩, ?_, ?_⟩ <;>
    simp only [Rect.contains, Bool.and_eq_true, decide_eq_true_eq] <;> omega

/-- The grid and the ports that the grants of the claims `G` leave, over the grid `v` of the releases. -/
structure State.ScanLaid (G : Waiter → Prop) (v u : State) : Prop where
  tile : ∀ w, G w → ∀ t, w.rect.contains t = true →
    (v.tile t).service = .opened ∧ ((v.tile t).owner = none ∨ (v.tile t).owner = some w.name.party) ∧
    u.tile t = (v.tile t).addHold w.name.party
  tile_of_none : ∀ t, (∀ w, G w → w.rect.contains t = false) → u.tile t = v.tile t
  closing : u.closing = v.closing
  port : ∀ w, G w → u.port w.name.party = (v.port w.name.party).raise (.granted w.name.slot)
  port_of_none : ∀ p, (∀ w, G w → w.name.party ≠ p) → u.port p = v.port p

namespace State.ScanLaid

variable {G : Waiter → Prop} {v u : State}

/-- A release of tiles beside the granted claims. -/
theorem dropHolds (h : State.ScanLaid G v u) {g : Tile → Bool}
    (hg : ∀ x, G x → ∀ t, x.rect.contains t = true → g t = false) (hC : ∀ x, G x → x.name.party ≠ .C) :
    State.ScanLaid G (v.dropHolds g) (u.dropHolds g) := by
  have hsame (t : Tile) (ht : g t = true) : u.tile t = v.tile t := h.tile_of_none t fun x hx => by
    by_contra hin
    rw [hg x hx t (Bool.not_eq_false _ ▸ hin)] at ht
    cases ht
  obtain ⟨hclosing, hport⟩ := State.dropHolds_congr (State.closedBy_congr fun z hz => .inl (hsame z hz)) h.closing
  refine ⟨fun x hx t ht => ?_, fun t ht => ?_, hclosing, fun x hx => ?_, fun p hp => hport p (h.port_of_none p hp)⟩
  · simp only [State.tile_dropHolds, hg x hx t ht, Bool.false_eq_true, if_false]
    exact h.tile x hx t ht
  · simp only [State.tile_dropHolds, h.tile_of_none t ht]
  · rw [State.port_dropHolds, State.port_dropHolds, if_neg fun he => hC x hx he.1, if_neg fun he => hC x hx he.1]
    exact h.port x hx

/-- One grant more. -/
theorem grant (h : State.ScanLaid G v u) {w : Waiter} {t : State} (hover : u.GrantedOver t w)
    (hfree : ∀ x, G x → ∀ z, x.rect.contains z = true → w.rect.contains z = false)
    (hparty : ∀ x, G x → x.name.party ≠ w.name.party)
    (htile : ∀ z, w.rect.contains z = true →
      (u.tile z).service = .opened ∧ ((u.tile z).owner = none ∨ (u.tile z).owner = some w.name.party)) :
    State.ScanLaid (fun x => G x ∨ x = w) v t := by
  have hbefore (z : Tile) (hz : w.rect.contains z = true) : u.tile z = v.tile z := h.tile_of_none z fun x hx => by
    by_contra hin
    rw [hfree x hx z (Bool.not_eq_false _ ▸ hin)] at hz
    cases hz
  refine ⟨fun x hx z hz => ?_, fun z hz => ?_, hover.closing.trans h.closing, fun x hx => ?_, fun p hp => ?_⟩
  · obtain hx | rfl := hx
    · rw [hover.tile, if_neg (by rw [hfree x hx z hz]; exact Bool.false_ne_true)]
      exact h.tile x hx z hz
    · rw [hover.tile, if_pos hz, ← hbefore z hz]
      exact ⟨(htile z hz).1, (htile z hz).2, rfl⟩
  · rw [hover.tile, if_neg (by rw [hz w (.inr rfl)]; exact Bool.false_ne_true)]
    exact h.tile_of_none z fun x hx => hz x (.inl hx)
  · obtain hx | rfl := hx
    · rw [hover.port_of_ne _ (hparty x hx)]
      exact h.port x hx
    · rw [hover.port, h.port_of_none _ hparty]
  · rw [hover.port_of_ne _ fun he => hp w (.inr rfl) he.symm]
    exact h.port_of_none p fun x hx => hp x (.inl hx)

end State.ScanLaid

/-- What the grants of a scan of `s` have made of it. -/
structure State.Scanned (s u : State) : Prop where
  moves : s.Moves u
  apart : ∀ w, s.Granted u w → ∀ z ∈ s.waiters, z.wait.arrival < w.wait.arrival → z.rect.overlaps w.rect = false
  target : ∀ w, s.Granted u w →
    u.slot w.name.party w.name.slot = .held w.rect (if w.name.party = .C then none else w.link)
  source : ∀ w, s.Granted u w → ∀ k r l, w.link = some k → s.slot w.name.party k = .held r l →
    u.slot w.name.party k = if w.name.party = .C then .empty else .draining r w.name.slot
  slot : ∀ p k, (∀ w, s.Granted u w → w.name.party = p → k ≠ w.name.slot ∧ w.link ≠ some k) → u.slot p k = s.slot p k
  laid : ∃ f : Tile → Bool, (∀ t, f t = true ↔ s.SourceLeft u t) ∧ State.ScanLaid (s.Granted u) (s.dropHolds f) u

namespace State.Scanned

variable {s u : State} {w : Waiter}

section Grant

variable (h : s.Scanned u) (horder : s.QueueOrder) (hgrid : s.GridLaw) (hw : u.waiter w.name = some w)

include h horder hw

theorem mem_queue : w.name ∈ u.queue := by
  rw [(horder.moves h.moves).pending, State.arrivalOf_eq_waiter, hw]
  rfl

/-- No claim of its party was granted before. -/
theorem party_ne {x : Waiter} (hx : s.Granted u x) : x.name.party ≠ w.name.party := fun hp =>
  have hqueue := h.mem_queue horder hw
  have hname := horder.eq_of_party (State.mem_waiters.mp hx.1).1 (h.moves.queue_sublist.mem hqueue) hp
  hx.2 (hname ▸ hqueue)

theorem slot_same (k : SlotNo) : u.slot w.name.party k = s.slot w.name.party k :=
  h.slot _ _ fun _ hx hp => absurd hp (h.party_ne horder hw hx)

theorem mem_waiters : w ∈ s.waiters := by
  refine State.mem_waiters.mpr ⟨h.moves.queue_sublist.mem (h.mem_queue horder hw), ?_⟩
  rw [← h.slot_same horder hw]
  exact (State.waiter_eq_some.mp hw).2

theorem granted_grantEntry (x : Waiter) : s.Granted (u.grantEntry w) x ↔ s.Granted u x ∨ x = w := by
  have hqueue : (u.grantEntry w).queue = u.queue.filter (· ≠ w.name) := by
    rw [State.grantEntry, State.queue_raise, State.QueueOrder.queue_grant]
  have hmem := h.mem_waiters horder hw
  unfold State.Granted
  rw [hqueue, List.mem_filter, decide_eq_true_eq]
  constructor
  · rintro ⟨hx, hleft⟩
    by_cases hname : x.name = w.name
    · right
      have hxs : s.waiter x.name = some x := State.waiter_eq_some.mpr ⟨rfl, (State.mem_waiters.mp hx).2⟩
      have hws : s.waiter w.name = some w := State.waiter_eq_some.mpr ⟨rfl, (State.mem_waiters.mp hmem).2⟩
      rw [hname, hws] at hxs
      exact (Option.some.inj hxs).symm
    · exact .inl ⟨hx, fun hin => hleft ⟨hin, hname⟩⟩
  · rintro (⟨hx, hleft⟩ | rfl)
    · exact ⟨hx, fun hin => hleft hin.1⟩
    · exact ⟨hmem, fun hin => hin.2 rfl⟩

end Grant

/-- A tile of a claim granted before is owned by its party. -/
theorem owner (h : s.Scanned u) (hgrid : s.GridLaw) {x : Waiter} (hx : s.Granted u x) {t : Tile}
    (ht : x.rect.contains t = true) : (u.tile t).owner = some x.name.party :=
  (hgrid.moves h.moves).owner_of_heldRect (k := x.name.slot) (by rw [h.target x hx]; rfl) ht

/-- A waiting claim of the scan waited in its beginning. -/
theorem waiter_of_mem (h : s.Scanned u) (horder : s.QueueOrder) {z : Waiter} (hz : z ∈ s.waiters)
    (hqueue : z.name ∈ u.queue) : z ∈ u.waiters := by
  obtain ⟨y, hy⟩ := (horder.moves h.moves).waiter_isSome hqueue
  obtain ⟨hname, hslot⟩ := State.waiter_eq_some.mp hy
  rw [← hname] at hy
  have hmem := h.mem_waiters horder hy
  have hys : s.waiter y.name = some y := State.waiter_eq_some.mpr ⟨rfl, (State.mem_waiters.mp hmem).2⟩
  have hzs : s.waiter z.name = some z := State.waiter_eq_some.mpr ⟨rfl, (State.mem_waiters.mp hz).2⟩
  rw [hname, hzs] at hys
  obtain rfl := Option.some.inj hys
  exact State.mem_waiters.mpr ⟨hqueue, hslot⟩

section Grant

variable (h : s.Scanned u) (horder : s.QueueOrder) (hgrid : s.GridLaw) (hw : u.waiter w.name = some w)
  (hg : u.grantable w.name.party w.rect w.wait.arrival = true)

include h horder hgrid hw

theorem sourceLeft_grantEntry (t : Tile) :
    s.SourceLeft (u.grantEntry w) t ↔ s.SourceLeft u t ∨ u.sourceTiles w t = true := by
  have hleft : s.SourceLeft (u.grantEntry w) t ↔ s.SourceLeft u t ∨
      w.name.party = .C ∧ ∃ k r l, w.link = some k ∧ s.slot .C k = .held r l ∧ r.contains t = true := by
    simp only [State.SourceLeft, h.granted_grantEntry horder hw, or_and_right, exists_or, exists_eq_left]
  rw [hleft]
  refine or_congr_right ?_
  by_cases hC : w.name.party = .C ∧ w.link.isSome = true
  · obtain ⟨hp, hlink⟩ := hC
    obtain ⟨j, hj⟩ := Option.isSome_iff_exists.mp hlink
    obtain ⟨q, hsource, -, htiles⟩ := (hgrid.moves h.moves).sourceTiles_eq hw hp hj
    have hsame := h.slot_same horder hw j
    rw [hp, hsource] at hsame
    rw [htiles]
    constructor
    · rintro ⟨-, k, r, l, hk, hr, ht⟩
      obtain rfl : j = k := Option.some.inj (hj.symm.trans hk)
      rw [← hsame] at hr
      cases hr
      exact ht
    · exact fun ht => ⟨hp, j, q, none, hj, hsame.symm, ht⟩
  · rw [State.GridLaw.sourceTiles_of_not hC]
    constructor
    · rintro ⟨hp, k, r, l, hk, -⟩
      exact absurd ⟨hp, by rw [hk]; rfl⟩ hC
    · exact fun hfalse => by cases hfalse

include hg

theorem rect_free {x : Waiter} (hx : s.Granted u x) {t : Tile} (ht : x.rect.contains t = true) :
    w.rect.contains t = false := by
  by_contra hin
  have howner := h.owner hgrid hx ht
  have hparty := h.party_ne horder hw hx
  obtain ⟨-, hfree | hown⟩ := State.tile_of_grantable hg (Bool.not_eq_false _ ▸ hin)
  · rw [howner] at hfree; cases hfree
  · rw [howner] at hown; exact hparty (Option.some.inj hown)

theorem laid_grantEntry : ∃ f : Tile → Bool, (∀ t, f t = true ↔ s.SourceLeft (u.grantEntry w) t) ∧
    State.ScanLaid (s.Granted (u.grantEntry w)) (s.dropHolds f) (u.grantEntry w) := by
  obtain ⟨f, hf, hlaid⟩ := h.laid
  have hgridU := hgrid.moves h.moves
  have hover := hgridU.grantedOver hw hg
  have hgranted : s.Granted (u.grantEntry w) = fun x => s.Granted u x ∨ x = w :=
    funext fun x => propext (h.granted_grantEntry horder hw x)
  rw [hgranted]
  refine ⟨fun t => f t || u.sourceTiles w t, fun t => ?_, ?_⟩
  · rw [Bool.or_eq_true, hf, h.sourceLeft_grantEntry horder hgrid hw]
  have hdropped : State.ScanLaid (s.Granted u) (s.dropHolds fun t => f t || u.sourceTiles w t)
      (u.dropHolds (u.sourceTiles w)) := by
    by_cases hC : w.name.party = .C ∧ w.link.isSome = true
    · obtain ⟨hp, hlink⟩ := hC
      obtain ⟨j, hj⟩ := Option.isSome_iff_exists.mp hlink
      obtain ⟨q, hsource, -, htiles⟩ := hgridU.sourceTiles_eq hw hp hj
      have hcell (x : Waiter) (hx : s.Granted u x) : x.name.party ≠ .C := hp ▸ h.party_ne horder hw hx
      have hnone (t : Tile) : f t = false := by
        by_contra ht
        obtain ⟨x, hx, hxp, -⟩ := (hf t).mp (Bool.not_eq_false _ ▸ ht)
        exact hcell x hx hxp
      rw [s.dropHolds_of_false hnone] at hlaid
      simp only [hnone, Bool.false_or]
      refine hlaid.dropHolds (fun x hx t ht => ?_) hcell
      rw [htiles]
      by_contra hin
      have hownC := hgridU.owner_of_heldRect (p := .C) (k := j) (r := q) (by rw [hsource]; rfl) (Bool.not_eq_false _ ▸ hin)
      rw [h.owner hgrid hx ht] at hownC
      exact hcell x hx (Option.some.inj hownC)
    · rw [u.dropHolds_of_false (State.GridLaw.sourceTiles_of_not hC)]
      simpa only [State.GridLaw.sourceTiles_of_not hC, Bool.or_false] using hlaid
  refine hdropped.grant hover (fun x hx z hz => h.rect_free horder hgrid hw hg hx hz)
    (fun x hx => h.party_ne horder hw hx) fun z hz => ?_
  obtain ⟨hopened, hown⟩ := State.tile_of_grantable hg hz
  rw [State.tile_dropHolds]
  split_ifs
  · obtain ⟨-, -, howner, hservice⟩ := (u.tile z).dropHold_spec
    rw [howner, hservice, if_neg fun he => by rw [hopened] at he; cases he.2]
    refine ⟨hopened, ?_⟩
    split_ifs
    · exact .inl rfl
    · exact hown
  · exact ⟨hopened, hown⟩

theorem apart_grantEntry {z : Waiter} (hz : z ∈ s.waiters) (hlt : z.wait.arrival < w.wait.arrival) :
    z.rect.overlaps w.rect = false := by
  by_contra hin
  have hover : z.rect.overlaps w.rect = true := Bool.not_eq_false _ ▸ hin
  by_cases hqueue : z.name ∈ u.queue
  · have hearlier : u.waiters.any (fun y => y.earlierOver w.wait.arrival w.rect) = true :=
      List.any_eq_true.mpr ⟨z, h.waiter_of_mem horder hz hqueue, by simp [Waiter.earlierOver, hlt, hover]⟩
    unfold State.grantable at hg
    rw [hearlier, Bool.not_true, Bool.and_false] at hg
    cases hg
  · have hrect := (hgrid.moves h.moves).slots.rects w.name.party w.name.slot w.rect
      (by rw [(State.waiter_eq_some.mp hw).2]; rfl)
    obtain ⟨t, htz, htw⟩ := hrect.exists_shared (hgrid.moves h.moves).params hover
    rw [h.rect_free horder hgrid hw hg ⟨hz, hqueue⟩ htz] at htw
    cases htw

theorem grantEntry : s.Scanned (u.grantEntry w) := by
  obtain ⟨htarget, hsource, hothers⟩ := (hgrid.moves h.moves).slot_grantEntry hw
  have hgranted := h.granted_grantEntry horder hw
  have hkept {x : Waiter} (hx : s.Granted u x) (k : SlotNo) :
      (u.grantEntry w).slot x.name.party k = u.slot x.name.party k :=
    hothers _ k fun hp => absurd hp (h.party_ne horder hw hx)
  refine ⟨?_, fun x hx => ?_, fun x hx => ?_, fun x hx k r l hk hr => ?_, fun p k hne => ?_,
    h.laid_grantEntry horder hgrid hw hg⟩
  · exact (h.moves.step (.grant u w.name w hw hg)).raise _ _ (Notice.allowedAt_of_code_le _ (by simp [Notice.code]))
  · obtain hx | rfl := (hgranted x).mp hx
    · exact h.apart x hx
    · exact fun z hz hlt => h.apart_grantEntry horder hgrid hw hg hz hlt
  · obtain hx | rfl := (hgranted x).mp hx
    · rw [hkept hx]; exact h.target x hx
    · exact htarget
  · obtain hx | rfl := (hgranted x).mp hx
    · rw [hkept hx]; exact h.source x hx k r l hk hr
    · exact hsource k r l hk ((h.slot_same horder hw k).trans hr)
  · rw [hothers p k fun hp => hne w ((hgranted w).mpr (.inr rfl)) hp.symm]
    exact h.slot p k fun x hx => hne x ((hgranted x).mpr (.inl hx))

end Grant

end State.Scanned

/-- A grant scan is a number of grants. -/
theorem State.scanned_grantScan {s : State} (horder : s.QueueOrder) (hgrid : s.GridLaw) : s.Scanned s.grantScan := by
  have hnone (w : Waiter) : ¬s.Granted s w := fun hw => hw.2 (State.mem_waiters.mp hw.1).1
  have hstart : s.Scanned s := by
    refine ⟨.refl s, fun w hw => (hnone w hw).elim, fun w hw => (hnone w hw).elim, fun w hw => (hnone w hw).elim,
      fun _ _ _ => rfl, fun _ => false, fun t => ⟨fun hfalse => (Bool.false_ne_true hfalse).elim, fun ⟨w, hw, _⟩ => (hnone w hw).elim⟩, ?_⟩
    rw [s.dropHolds_of_false fun _ => rfl]
    exact ⟨fun w hw => (hnone w hw).elim, fun _ _ => rfl, rfl, fun w hw => (hnone w hw).elim, fun _ _ => rfl⟩
  exact State.grantScan_keeps hstart fun u w h _ hw hg => h.grantEntry horder hgrid hw hg

end Sys2Proof.Machine

open Sys2Proof Sys2Proof.Machine

/-- Settles O46: the scan is a number of grants (`State.scanned_grantScan`), and its last pass reaches no grantable claim. -/
theorem grantScanGrantsAllItCan : Obligations.GrantScanGrantsAllItCan := by
  unfold Obligations.GrantScanGrantsAllItCan
  intro s hlaw
  have horder := hlaw.queue.order
  have hgrid := hlaw.gridLaw
  have h := State.scanned_grantScan horder hgrid
  have hmoves := h.moves
  refine ⟨State.noneGrantable_grantScan horder, hmoves.queue_sublist, fun w hw => ?_, h.apart,
    ⟨fun w hw => ⟨h.target w hw, h.source w hw⟩, h.slot, s.tripTiles_grantScan⟩, ?_, fun t => (hmoves.aged t).1, ?_⟩
  · by_cases hqueue : w.name ∈ s.grantScan.queue
    · exact .inl ⟨hqueue, (State.mem_waiters.mp (h.waiter_of_mem horder hw hqueue)).2⟩
    · have hgranted : s.Granted s.grantScan w := ⟨hw, hqueue⟩
      obtain ⟨f, -, hlaid⟩ := h.laid
      refine .inr ⟨hqueue, ⟨_, h.target w hgranted⟩, ?_, fun t => h.owner hgrid hgranted⟩
      rw [hlaid.port w hgranted]
      exact mem_insertNotice_self _ _
  · obtain ⟨f, hf, hlaid⟩ := h.laid
    exact ⟨s.dropHolds f, ⟨⟨f, hf, s.holdsEnded_dropHolds f⟩, hlaid.tile, hlaid.tile_of_none, hlaid.closing⟩, hlaid.port,
      hlaid.port_of_none⟩
  · have harmA : s.grantScan.armA = s.armA := arm_grantScan s .A
    have harmB : s.grantScan.armB = s.armB := arm_grantScan s .B
    have hcontrol := hmoves.controlKept
    unfold State.ControlKept at hcontrol
    rw [harmA, harmB] at hcontrol
    exact hcontrol
end

section
/-! SUPPORT. The parts of a HALT: the cancellations and the trips of the arms (R97, R140, R152). -/

namespace Sys2Proof.Machine

open Sys2Proof

/-! ### The cancellation of every PENDING claim (R97) -/

/-- Every PENDING claim is cancelled with cause HALT. -/
def State.cancelAll (s : State) : State :=
  ((s.cancelPending .A .halt).cancelPending .B .halt).cancelPending .C .halt

theorem State.QueueOrder.slot_cancelPending {s : State} (h : s.QueueOrder) (p q : Party) (c : CancelCause) (k : SlotNo) :
    (s.cancelPending p c).slot q k = if q = p ∧ (s.slot q k).state = .pending then .empty else s.slot q k := by
  split_ifs with hk
  · obtain ⟨rfl, hk⟩ := hk
    exact (h.cancelled c hk).1
  · exact State.slot_cancelPending_of_left (by tauto)

section CancelAll

variable {s : State} (h : s.QueueOrder)

include h

theorem State.QueueOrder.slot_cancelAll (p : Party) (k : SlotNo) :
    s.cancelAll.slot p k = if (s.slot p k).state = .pending then .empty else s.slot p k := by
  have hA := h.cancelPending .A .halt
  have hB := hA.cancelPending .B .halt
  rw [State.cancelAll, hB.slot_cancelPending, hA.slot_cancelPending, h.slot_cancelPending]
  cases p <;> simp

theorem State.QueueOrder.not_pending_cancelAll (p : Party) (k : SlotNo) : (s.cancelAll.slot p k).state ≠ .pending := by
  rw [h.slot_cancelAll]
  split_ifs with hk
  · simp [Claim.state]
  · exact hk

theorem State.QueueOrder.mem_cancelAll {p : Party} {k : SlotNo} (hk : (s.slot p k).state = .pending) :
    Notice.cancelled k .halt ∈ (s.cancelAll.port p).attention := by
  have hA := h.cancelPending .A .halt
  have hB := hA.cancelPending .B .halt
  unfold State.cancelAll
  cases p with
  | A =>
    rw [State.port_cancelPending_of_ne _ _ (by decide), State.port_cancelPending_of_ne _ _ (by decide)]
    exact (h.cancelled .halt hk).2
  | B =>
    rw [State.port_cancelPending_of_ne _ _ (by decide)]
    exact (hA.cancelled .halt (by rw [h.slot_cancelPending]; simpa using hk)).2
  | C => exact (hB.cancelled .halt (by rw [hA.slot_cancelPending, h.slot_cancelPending]; simpa using hk)).2

theorem State.QueueOrder.raises_cancelAll :
    s.Raises (fun p n => ∃ k, (s.slot p k).state = .pending ∧ n = .cancelled k .halt) s.cancelAll := by
  have hA := h.cancelPending .A .halt
  refine (((s.raises_cancelPending .A .halt).mono ?_).trans ((State.raises_cancelPending _ .B .halt).mono ?_)).trans
    ((State.raises_cancelPending _ .C .halt).mono ?_)
  · exact fun p n hn => by obtain ⟨rfl, hn⟩ := hn; exact hn
  · rintro p n ⟨rfl, k, hk, hn⟩
    rw [h.slot_cancelPending] at hk
    exact ⟨k, by simpa using hk, hn⟩
  · rintro p n ⟨rfl, k, hk, hn⟩
    rw [hA.slot_cancelPending, h.slot_cancelPending] at hk
    exact ⟨k, by simpa using hk, hn⟩

end CancelAll

@[simp] theorem State.arm_cancelAll (s : State) (x : Arm) : s.cancelAll.arm x = s.arm x := by simp [State.cancelAll]

@[simp] theorem State.tile_cancelAll (s : State) (z : Tile) : s.cancelAll.tile z = s.tile z := by simp [State.cancelAll]

@[simp] theorem State.tripTiles_cancelAll (s : State) (x : Arm) : s.cancelAll.tripTiles x = s.tripTiles x := by
  simp only [State.cancelAll, tripTiles_cancelPending]

/-! ### The trip of one arm (R140) -/

/-- The notices of a HALT's trip of an arm (R138, R145). -/
def State.TripNotice (v : State) (x : Arm) (p : Party) (n : Notice) : Prop :=
  v.trippable x = true ∧ ((p = x.party ∧ n = .tripped .halt) ∨
    (p = .C ∧ (n = .armTripped x ∨ ∃ z, v.intruded x = some z ∧ n = .intrusion x z)))

/-- What the trip of an ARMING or LIVE arm in a HALT does to a state without PENDING claims. -/
structure State.ArmHalted (v d : State) (x : Arm) : Prop where
  arm : d.arm x =
    { v.arm x with guard := ⟨.tripped, false, 0, (v.arm x).guard.joined, some (v.newRecord x .halt false none)⟩ }
  tripTiles : d.tripTiles x = allTiles.filter (v.tripTakes x)
  tile : ∀ z, d.tile z =
    if v.tripTakes x z = true then { v.tile z with owner := some x.party, hold := (v.tile z).hold + 1 } else v.tile z
  arm_of_ne : ∀ y, y ≠ x → d.arm y = v.arm y
  tripTiles_of_ne : ∀ y, y ≠ x → d.tripTiles y = v.tripTiles y
  slot : ∀ p k, d.slot p k = v.slot p k
  intruded : ∀ y, d.intruded y = v.intruded y
  raises : v.Raises (v.TripNotice x) d
  tripped : Notice.tripped .halt ∈ (d.port x.party).attention
  armTripped : Notice.armTripped x ∈ (d.port .C).attention
  intrusion : ∀ z, v.intruded x = some z → Notice.intrusion x z ∈ (d.port .C).attention

theorem State.raises_raiseIntrusion (v : State) (x : Arm) (o : Option Tile) :
    v.Raises (fun p n => p = .C ∧ ∃ z, o = some z ∧ n = .intrusion x z) (v.raiseIntrusion x o) := by
  cases o with
  | none => exact .refl v
  | some z => exact (State.Raises.refl v).raise ⟨rfl, z, rfl, rfl⟩

theorem State.haltArm_of_not_trippable {v : State} {x : Arm} (hx : v.trippable x = false) : v.haltArm x = v :=
  if_neg (by rw [hx]; exact Bool.false_ne_true)

theorem State.armHalted {v : State} {x : Arm} (hpending : ∀ p k, (v.slot p k).state ≠ .pending)
    (hx : v.trippable x = true) : v.ArmHalted (v.haltArm x) x := by
  have heq : v.haltArm x = ((v.tripBegin x .halt false none).raiseIntrusion x (v.intruded x)).announceTrip x .halt :=
    (if_pos hx).trans (v.tripImposed_eq x .halt none)
  have hcancel : v.cancelPending x.party .trip = v := State.cancelPending_of_not_pending .trip (hpending x.party)
  set w := v.tripBegin x .halt false none with hw
  have hplant : w.SamePlant (v.haltArm x) := heq ▸ ((State.SamePlant.refl w).raiseIntrusion x _).announceTrip x .halt
  have hport (p : Party) : w.port p = v.port p := by rw [hw, State.port_tripBegin, hcancel]
  have hbegun : v.Raises (v.TripNotice x) w := .of_port_eq (.refl v) hport
  have hraised : v.Raises (v.TripNotice x) (w.raiseIntrusion x (v.intruded x)) :=
    hbegun.trans ((w.raises_raiseIntrusion x _).mono fun p n ⟨hp, z, hz, hn⟩ => ⟨hx, .inr ⟨hp, .inr ⟨z, hz, hn⟩⟩⟩)
  refine ⟨by rw [hplant.arm, hw, State.arm_tripBegin], by rw [hplant.tripTiles, hw, State.tripTiles_tripBegin],
    fun z => by rw [hplant.tile, hw, State.tile_tripBegin], fun y hy => by rw [hplant.arm, hw, arm_tripBegin_of_ne _ _ _ _ hy],
    fun y hy => by rw [hplant.tripTiles, hw, State.tripTiles_tripBegin_of_ne hy],
    fun p k => by rw [hplant.slot, hw, State.slot_tripBegin, hcancel], fun y => ?_, ?_, ?_, ?_, fun z hz => ?_⟩
  · rw [← State.intruded_tripBegin (s := v) (x := x) (c := .halt) (own := false) (o := none)]
    simp only [State.intruded, State.touches_congr (congrArg ArmUnit.evaluation (hplant.arm y)), hplant.tile, hw]
  · rw [heq]
    exact (hraised.raise ⟨hx, .inl ⟨rfl, rfl⟩⟩).raise ⟨hx, .inr ⟨rfl, .inl rfl⟩⟩
  · rw [heq, State.port_announceTrip]
    exact mem_insertNotice_self _ _
  · rw [heq]
    exact State.mem_attention_raise ..
  · rw [heq, State.announceTrip, State.port_raise, State.port_raise_of_ne _ _ (Arm.party_ne_C x).symm, hz]
    exact mem_insertNotice_of_ne (State.mem_attention_raise ..) (by simp [Notice.code])

end Sys2Proof.Machine
end

section
/-! SUPPORT. HALT and the halt line in GUARDING (R97, R140, R152, R153). -/

namespace Sys2Proof.Machine

open Sys2Proof

/-- What a trip lays down from a state `v` that differs from `s` in the tiles that the other arm took before it. -/
theorem State.haltTripped_of {s v u : State} {x : Arm} (hs : v.arm x = s.arm x)
    (harm : u.arm x =
      { v.arm x with guard := ⟨.tripped, false, 0, (v.arm x).guard.joined, some (v.newRecord x .halt false none)⟩ })
    (htrip : u.tripTiles x = allTiles.filter (v.tripTakes x))
    (hheld : ∀ z, v.tripTakes x z = true → u.tile z = { v.tile z with owner := some x.party, hold := (v.tile z).hold + 1 })
    (hfree : ∀ z, ¬s.TakenBefore u x z → v.tile z = s.tile z)
    (htaken : ∀ z, s.TakenBefore u x z → (v.tile z).owner = some x.other.party ∧ (s.tile z).owner ≠ some x.party) :
    s.HaltTripped u x := by
  have htouches (z : Tile) : v.touches x z = s.touches x z := State.touches_congr (congrArg ArmUnit.evaluation hs) z
  have hother : x.other.party ≠ x.party := fun he => Arm.other_ne x (Arm.party_injective he)
  have htakes (z : Tile) : v.tripTakes x z = true ↔ s.touches x z = true ∧
      ((s.tile z).owner = some x.party ∨ (s.FreeOpen z ∧ ¬s.TakenBefore u x z)) := by
    rw [State.tripTakes_iff, htouches]
    refine and_congr_right fun _ => ?_
    by_cases hz : s.TakenBefore u x z
    · obtain ⟨howner, hnot⟩ := htaken z hz
      refine iff_of_false ?_ ?_
      · rintro (hown | ⟨hnone, -⟩)
        · exact hother (Option.some.inj (howner.symm.trans hown))
        · rw [howner] at hnone; cases hnone
      · rintro (hown | ⟨-, hleft⟩)
        · exact hnot hown
        · exact hleft hz
    · rw [hfree z hz]
      simp [hz, State.FreeOpen]
  have hmem (z : Tile) : z ∈ u.tripTiles x ↔ v.tripTakes x z = true := by
    rw [htrip, List.mem_filter]
    simp
  have hguard := congrArg ArmUnit.guard harm
  refine ⟨by rw [hguard], by rw [hguard], by rw [hguard], by rw [hguard, hs],
    ⟨v.newRecord x .halt false none, by rw [hguard], ⟨rfl, rfl, rfl⟩, rfl, rfl, ?_, ?_, ?_⟩, fun z => ?_, ?_, fun z hz => ?_⟩
  · rw [← hs]
    exact v.tripRecord_measures x .halt false none
  · rw [htrip, length_filter_allTiles]
    rfl
  · refine State.tripContested_iff.trans (exists_congr fun z => ?_)
    rw [State.ContestedAtHalt, htouches]
    by_cases hz : s.TakenBefore u x z
    · exact ⟨fun ⟨_, htouch, _⟩ => ⟨htouch, .inl hz⟩, fun ⟨htouch, _⟩ => ⟨_, htouch, (htaken z hz).1, hother⟩⟩
    · simp [hfree z hz, hz]
  · rw [hmem, htakes]
  · rw [htrip]
    exact allTiles_nodup.filter _
  · have htake := (hmem z).mp hz
    rw [hheld z htake, hfree z fun hbefore => ?_]
    obtain ⟨-, hown | ⟨-, hnot⟩⟩ := (htakes z).mp htake
    · exact (htaken z hbefore).2 hown
    · exact hnot hbefore

/-! ### The trip of an arm that may trip -/

section HaltArm

variable {v : State} {x : Arm} (hpending : ∀ p k, (v.slot p k).state ≠ .pending)

include hpending

theorem State.tile_haltArm (z : Tile) : (v.haltArm x).tile z =
    if v.trippable x = true ∧ v.tripTakes x z = true then { v.tile z with owner := some x.party, hold := (v.tile z).hold + 1 }
    else v.tile z := by
  cases hx : v.trippable x with
  | true => simp only [(State.armHalted hpending hx).tile, true_and]
  | false => simp [State.haltArm_of_not_trippable hx]

theorem State.slot_haltArm (p : Party) (k : SlotNo) : (v.haltArm x).slot p k = v.slot p k := by
  cases hx : v.trippable x with
  | true => exact (State.armHalted hpending hx).slot p k
  | false => rw [State.haltArm_of_not_trippable hx]

theorem State.arm_haltArm_of_ne {y : Arm} (hy : y ≠ x) : (v.haltArm x).arm y = v.arm y := by
  cases hx : v.trippable x with
  | true => exact (State.armHalted hpending hx).arm_of_ne y hy
  | false => rw [State.haltArm_of_not_trippable hx]

theorem State.tripTiles_haltArm_of_ne {y : Arm} (hy : y ≠ x) : (v.haltArm x).tripTiles y = v.tripTiles y := by
  cases hx : v.trippable x with
  | true => exact (State.armHalted hpending hx).tripTiles_of_ne y hy
  | false => rw [State.haltArm_of_not_trippable hx]

theorem State.intruded_haltArm (y : Arm) : (v.haltArm x).intruded y = v.intruded y := by
  cases hx : v.trippable x with
  | true => exact (State.armHalted hpending hx).intruded y
  | false => rw [State.haltArm_of_not_trippable hx]

theorem State.raises_haltArm : v.Raises (v.TripNotice x) (v.haltArm x) := by
  cases hx : v.trippable x with
  | true => exact (State.armHalted hpending hx).raises
  | false => rw [State.haltArm_of_not_trippable hx]

end HaltArm

/-! ### The two arms, A before B -/

/-- The mode and the cancelled claims of a HALT. -/
def State.haltCancelled (s : State) : State := ({ s with mode := .halted } : State).cancelAll

/-- The trip of arm A in a HALT. -/
def State.haltedA (s : State) : State := s.haltCancelled.haltArm .A

/-- The trip of arm B after it; no claim waits then. -/
def State.haltArms (s : State) : State := s.haltedA.haltArm .B

theorem State.arm_haltCancelled (s : State) (x : Arm) : s.haltCancelled.arm x = s.arm x := by
  rw [State.haltCancelled, State.arm_cancelAll]
  cases x <;> rfl

theorem State.tile_haltCancelled (s : State) (z : Tile) : s.haltCancelled.tile z = s.tile z :=
  State.tile_cancelAll ..

theorem State.tripTiles_haltCancelled (s : State) (x : Arm) : s.haltCancelled.tripTiles x = s.tripTiles x :=
  State.tripTiles_cancelAll ..

theorem State.trippable_haltCancelled (s : State) (x : Arm) : s.haltCancelled.trippable x = s.trippable x :=
  State.trippable_congr (s.arm_haltCancelled x)

theorem State.tripTakes_haltCancelled (s : State) (x : Arm) : s.haltCancelled.tripTakes x = s.tripTakes x :=
  State.tripTakes_congr (congrArg ArmUnit.evaluation (s.arm_haltCancelled x)) s.tile_haltCancelled

theorem State.intruded_haltCancelled (s : State) (x : Arm) : s.haltCancelled.intruded x = s.intruded x := by
  simp only [State.intruded, State.touches_congr (congrArg ArmUnit.evaluation (s.arm_haltCancelled x)), s.tile_haltCancelled]

namespace State.QueueLaw

variable {s : State} (h : s.QueueLaw)

include h

theorem order_halted : State.QueueOrder { s with mode := .halted } := h.order.of_slots rfl fun _ _ => rfl

theorem slot_haltCancelled (p : Party) (k : SlotNo) :
    s.haltCancelled.slot p k = if (s.slot p k).state = .pending then .empty else s.slot p k :=
  h.order_halted.slot_cancelAll p k

theorem not_pending_haltCancelled (p : Party) (k : SlotNo) : (s.haltCancelled.slot p k).state ≠ .pending :=
  h.order_halted.not_pending_cancelAll p k

theorem not_pending_haltedA (p : Party) (k : SlotNo) : (s.haltedA.slot p k).state ≠ .pending := by
  rw [State.haltedA, State.slot_haltArm h.not_pending_haltCancelled]
  exact h.not_pending_haltCancelled p k

theorem slot_haltArms (p : Party) (k : SlotNo) :
    s.haltArms.slot p k = if (s.slot p k).state = .pending then .empty else s.slot p k := by
  rw [State.haltArms, State.slot_haltArm h.not_pending_haltedA, State.haltedA, State.slot_haltArm h.not_pending_haltCancelled,
    h.slot_haltCancelled]

theorem arm_haltedA_B : s.haltedA.arm .B = s.arm .B :=
  (State.arm_haltArm_of_ne h.not_pending_haltCancelled (by decide)).trans (s.arm_haltCancelled .B)

theorem trippable_haltedA_B : s.haltedA.trippable .B = s.trippable .B := State.trippable_congr h.arm_haltedA_B

theorem tile_haltedA (z : Tile) : s.haltedA.tile z =
    if s.trippable .A = true ∧ s.tripTakes .A z = true then
      { s.tile z with owner := some .A, hold := (s.tile z).hold + 1 } else s.tile z := by
  rw [State.haltedA, State.tile_haltArm h.not_pending_haltCancelled, s.trippable_haltCancelled, s.tripTakes_haltCancelled,
    s.tile_haltCancelled]
  rfl

theorem intruded_haltedA (x : Arm) : s.haltedA.intruded x = s.intruded x :=
  (State.intruded_haltArm h.not_pending_haltCancelled x).trans (s.intruded_haltCancelled x)

theorem armHalted_A (hA : s.trippable .A = true) : s.haltCancelled.ArmHalted s.haltedA .A :=
  State.armHalted h.not_pending_haltCancelled ((s.trippable_haltCancelled .A).trans hA)

theorem armHalted_B (hB : s.trippable .B = true) : s.haltedA.ArmHalted s.haltArms .B :=
  State.armHalted h.not_pending_haltedA (h.trippable_haltedA_B.trans hB)

theorem arm_haltArms_A : s.haltArms.arm .A = s.haltedA.arm .A :=
  State.arm_haltArm_of_ne h.not_pending_haltedA (by decide)

theorem tripTiles_haltArms_A : s.haltArms.tripTiles .A = s.haltedA.tripTiles .A :=
  State.tripTiles_haltArm_of_ne h.not_pending_haltedA (by decide)

/-- The tiles that arm A has taken are those that arm B finds taken (R140). -/
theorem takenBefore_iff {u : State} (hu : s.haltArms.SamePlant u) (z : Tile) :
    s.TakenBefore u .B z ↔ s.trippable .A = true ∧ s.tripTakes .A z = true := by
  unfold State.TakenBefore
  simp only [true_and]
  refine and_congr_right fun hA => ?_
  rw [hu.tripTiles, h.tripTiles_haltArms_A, (h.armHalted_A hA).tripTiles, s.tripTakes_haltCancelled, List.mem_filter]
  simp

/-- Arm B does not take what arm A has taken. -/
theorem tile_of_taken_A (hA : s.trippable .A = true) {z : Tile} (hz : s.tripTakes .A z = true) :
    s.haltedA.tripTakes .B z = false := by
  have howner : (s.haltedA.tile z).owner = some .A := by rw [h.tile_haltedA, if_pos ⟨hA, hz⟩]
  rw [← Bool.not_eq_true, State.tripTakes_iff, howner]
  simp [Arm.party]

theorem haltTripped {u : State} (hu : s.haltArms.SamePlant u) {x : Arm} (hx : s.trippable x = true) : s.HaltTripped u x := by
  cases x with
  | A =>
    have hlaid := h.armHalted_A hx
    have hnot (z : Tile) : ¬s.TakenBefore u .A z := fun ⟨hAB, _⟩ => by cases hAB
    refine State.haltTripped_of (s.arm_haltCancelled .A) ?_ ?_ (fun z hz => ?_) (fun z _ => s.tile_haltCancelled z)
      fun z hz => (hnot z hz).elim
    · rw [hu.arm, h.arm_haltArms_A, hlaid.arm]
    · rw [hu.tripTiles, h.tripTiles_haltArms_A, hlaid.tripTiles]
    · rw [s.tripTakes_haltCancelled] at hz
      rw [hu.tile, State.haltArms, State.tile_haltArm h.not_pending_haltedA, h.tile_of_taken_A hx hz,
        if_neg fun hboth => Bool.false_ne_true hboth.2, hlaid.tile, s.tripTakes_haltCancelled, if_pos hz]
  | B =>
    have hlaid := h.armHalted_B hx
    refine State.haltTripped_of h.arm_haltedA_B ?_ ?_ (fun z hz => ?_) (fun z hz => ?_) fun z hz => ?_
    · rw [hu.arm, hlaid.arm]
    · rw [hu.tripTiles, hlaid.tripTiles]
    · rw [hu.tile, hlaid.tile, if_pos hz]
    · rw [h.takenBefore_iff hu] at hz
      rw [h.tile_haltedA, if_neg hz]
    · rw [h.takenBefore_iff hu] at hz
      rw [h.tile_haltedA, if_pos hz]
      obtain ⟨-, hown | ⟨hnone, -⟩⟩ := State.tripTakes_iff.mp hz.2
      · exact ⟨rfl, by rw [hown]; simp [Arm.party]⟩
      · exact ⟨rfl, by rw [hnone]; simp⟩

/-- An arm that does not trip keeps its guard and its trip claim. -/
theorem halt_left {u : State} (hu : s.haltArms.SamePlant u) {x : Arm} (hx : s.trippable x = false) :
    u.arm x = s.arm x ∧ u.tripTiles x = s.tripTiles x := by
  rw [hu.arm, hu.tripTiles]
  cases x with
  | A =>
    rw [h.arm_haltArms_A, h.tripTiles_haltArms_A, State.haltedA,
      State.haltArm_of_not_trippable ((s.trippable_haltCancelled .A).trans hx)]
    exact ⟨s.arm_haltCancelled .A, s.tripTiles_haltCancelled .A⟩
  | B =>
    rw [State.haltArms, State.haltArm_of_not_trippable (h.trippable_haltedA_B.trans hx)]
    exact ⟨h.arm_haltedA_B, (State.tripTiles_haltArm_of_ne h.not_pending_haltCancelled (by decide)).trans
      (s.tripTiles_haltCancelled .B)⟩

/-- A tile that no arm takes keeps its record. -/
theorem halt_tile {u : State} (hu : s.haltArms.SamePlant u) {z : Tile}
    (hz : ∀ x, s.trippable x = true → z ∉ u.tripTiles x) : u.tile z = s.tile z := by
  have hA : ¬(s.trippable .A = true ∧ s.tripTakes .A z = true) := fun ⟨hx, hin⟩ => hz .A hx (by
    rw [hu.tripTiles, h.tripTiles_haltArms_A, (h.armHalted_A hx).tripTiles, s.tripTakes_haltCancelled, List.mem_filter]
    exact ⟨mem_allTiles z, hin⟩)
  have hB : ¬(s.haltedA.trippable .B = true ∧ s.haltedA.tripTakes .B z = true) := fun ⟨hx, hin⟩ => by
    rw [h.trippable_haltedA_B] at hx
    refine hz .B hx ?_
    rw [hu.tripTiles, (h.armHalted_B hx).tripTiles, List.mem_filter]
    exact ⟨mem_allTiles z, hin⟩
  rw [hu.tile, State.haltArms, State.tile_haltArm h.not_pending_haltedA, if_neg hB, h.tile_haltedA, if_neg hA]

/-- No claim waits after the cancellations, so that the grant scan grants none. -/
theorem haltCell_eq (src : HaltSource) : s.haltCell src =
    ((s.haltArms.raise .A (.halted src)).raise .B (.halted src)).raise .C (.halted src) := by
  have hqueue : s.haltArms.queue = [] := by
    have hmoves := ((State.Moves.refl s.haltCancelled).haltArm .A).haltArm .B
    have hsub := hmoves.queue_sublist
    rw [State.haltCancelled, State.cancelAll, State.QueueLaw.queue_cancelAll h.order_halted, List.sublist_nil] at hsub
    exact hsub
  have hdef : s.haltCell src =
    ((s.haltArms.grantScan.raise .A (.halted src)).raise .B (.halted src)).raise .C (.halted src) := rfl
  rw [hdef, State.grantScan_nil hqueue]

theorem samePlant_haltCell (src : HaltSource) : s.haltArms.SamePlant (s.haltCell src) := by
  rw [h.haltCell_eq src]
  exact (((State.SamePlant.refl _).raise _ _).raise _ _).raise _ _

end State.QueueLaw

end Sys2Proof.Machine
end

section
/-! SUPPORT. The notices of a HALT (R97, R138, R145, R152). -/

namespace Sys2Proof.Machine

open Sys2Proof

theorem State.TripNotice.code {v : State} {x : Arm} {p : Party} {n : Notice} (h : v.TripNotice x p n) :
    n.code = 8 ∨ n.code = 14 ∨ n.code = 15 := by
  obtain ⟨-, ⟨-, rfl⟩ | ⟨-, rfl | ⟨z, -, rfl⟩⟩⟩ := h <;> simp [Notice.code]

theorem State.TripNotice.haltRaises {s v : State} {x : Arm} {p : Party} {n : Notice} (src : HaltSource)
    (h : v.TripNotice x p n) (htrippable : v.trippable x = s.trippable x) (hintruded : v.intruded x = s.intruded x) :
    s.HaltRaises src p n := by
  obtain ⟨hx, hown | ⟨hC, harm | ⟨z, hz, hn⟩⟩⟩ := h
  · exact .inr (.inr ⟨x, htrippable ▸ hx, .inl hown⟩)
  · exact .inr (.inr ⟨x, htrippable ▸ hx, .inr ⟨hC, .inl harm⟩⟩)
  · rw [hintruded, State.intruded_eq_some] at hz
    exact .inr (.inr ⟨x, htrippable ▸ hx, .inr ⟨hC, .inr ⟨z, hz, hn⟩⟩⟩)

namespace State.QueueLaw

variable {s : State} (h : s.QueueLaw) (src : HaltSource)

include h

theorem port_haltCell (p : Party) : (s.haltCell src).port p = (s.haltArms.port p).raise (.halted src) := by
  rw [h.haltCell_eq src]
  cases p
  · rw [State.port_raise_of_ne _ _ (by decide), State.port_raise_of_ne _ _ (by decide), State.port_raise]
  · rw [State.port_raise_of_ne _ _ (by decide), State.port_raise, State.port_raise_of_ne _ _ (by decide)]
  · rw [State.port_raise, State.port_raise_of_ne _ _ (by decide), State.port_raise_of_ne _ _ (by decide)]

/-- A notice of another kind than HALTED is kept by the last step of a HALT. -/
theorem mem_haltCell {p : Party} {n : Notice} (hn : n ∈ (s.haltArms.port p).attention) (hcode : n.code ≠ 11) :
    n ∈ ((s.haltCell src).port p).attention := by
  rw [h.port_haltCell]
  exact mem_insertNotice_of_ne hn hcode

theorem raises_haltedA : s.haltCancelled.Raises (s.haltCancelled.TripNotice .A) s.haltedA :=
  State.raises_haltArm h.not_pending_haltCancelled

theorem raises_haltArms : s.haltedA.Raises (s.haltedA.TripNotice .B) s.haltArms :=
  State.raises_haltArm h.not_pending_haltedA

/-- The notices of arm A's trip that arm B's does not replace. -/
theorem mem_haltCell_of_A {p : Party} {n : Notice} (hn : n ∈ (s.haltedA.port p).attention) (hcode : n.code ≠ 11)
    (hB : ∀ m, s.haltedA.TripNotice .B p m → m.code ≠ n.code) : n ∈ ((s.haltCell src).port p).attention :=
  h.mem_haltCell src (h.raises_haltArms.mem_of_mem hn hB) hcode

theorem raises_haltCell : s.Raises (s.HaltRaises src) (s.haltCell src) := by
  have hmode : s.Raises (s.HaltRaises src) ({ s with mode := .halted } : State) :=
    .of_port_eq (.refl s) fun p => by cases p <;> rfl
  have hcancelled := hmode.trans (h.order_halted.raises_cancelAll.mono fun p n hn => .inr (.inl hn))
  have hA := hcancelled.trans (h.raises_haltedA.mono fun p n hn =>
    hn.haltRaises src (s.trippable_haltCancelled .A) (s.intruded_haltCancelled .A))
  have hB := hA.trans (h.raises_haltArms.mono fun p n hn =>
    hn.haltRaises src h.trippable_haltedA_B (h.intruded_haltedA .B))
  rw [h.haltCell_eq src]
  exact ((hB.raise (.inl rfl)).raise (.inl rfl)).raise (.inl rfl)

theorem haltNotices : s.HaltNotices (s.haltCell src) src := by
  refine ⟨fun p => ?_, fun p k hk => ?_, fun x hx => ?_, fun hB => ?_, fun hA hB => ?_, fun x z hx hz hlast => ?_,
    fun p n hn => (h.raises_haltCell src).mem hn, fun p n hn hcode => (h.raises_haltCell src).mem_of_mem hn hcode⟩
  · rw [h.port_haltCell]
    exact ⟨mem_insertNotice_self _ _, rfl⟩
  · have hmem : Notice.cancelled k .halt ∈ (s.haltCancelled.port p).attention := h.order_halted.mem_cancelAll hk
    have hne {v : State} {x : Arm} (m : Notice) (hm : v.TripNotice x p m) : m.code ≠ (Notice.cancelled k .halt).code := by
      have hcode := hm.code
      rw [show (Notice.cancelled k .halt).code = 4 from rfl]
      omega
    exact h.mem_haltCell_of_A src (h.raises_haltedA.mem_of_mem hmem hne) (by simp [Notice.code]) hne
  · cases x with
    | A =>
      refine h.mem_haltCell_of_A src (h.armHalted_A hx).tripped (by simp [Notice.code]) fun m hm => ?_
      obtain ⟨-, ⟨hp, -⟩ | ⟨hp, -⟩⟩ := hm <;> cases hp
    | B => exact h.mem_haltCell src (h.armHalted_B hx).tripped (by simp [Notice.code])
  · exact h.mem_haltCell src (h.armHalted_B hB).armTripped (by simp [Notice.code])
  · refine h.mem_haltCell_of_A src (h.armHalted_A hA).armTripped (by simp [Notice.code]) fun m hm => ?_
    rw [State.TripNotice, h.trippable_haltedA_B, hB] at hm
    exact absurd hm.1 Bool.false_ne_true
  · rw [← State.intruded_eq_some] at hz
    cases x with
    | A =>
      refine h.mem_haltCell_of_A src ((h.armHalted_A hx).intrusion z ((s.intruded_haltCancelled .A).trans hz))
        (by simp [Notice.code]) fun m hm => ?_
      obtain ⟨hB, ⟨hp, -⟩ | ⟨-, rfl | ⟨y, hy, -⟩⟩⟩ := hm
      · cases hp
      · simp [Notice.code]
      · rw [h.trippable_haltedA_B] at hB
        rw [h.intruded_haltedA] at hy
        obtain hnot | hnone := hlast rfl
        · rw [hB] at hnot; cases hnot
        · exact absurd ⟨y, (State.intruded_eq_some.mp hy).1⟩ hnone
    | B => exact h.mem_haltCell src ((h.armHalted_B hx).intrusion z ((h.intruded_haltedA .B).trans hz)) (by simp [Notice.code])

/-! ### The whole HALT -/

theorem haltedFrom : s.HaltedFrom (s.haltCell src) src := by
  have hplant := h.samePlant_haltCell src
  obtain ⟨hmode, -⟩ := (s.haltCell_moves src).control
  have hraises := (State.OnlyRaises.refl s).haltCell src
  refine ⟨hmode, ?_, fun p k => ?_, fun x hx => h.haltTripped hplant hx, fun x hx => ?_, fun x => ?_,
    fun z hz => h.halt_tile hplant hz, h.haltNotices src, ?_, fun p => hraises.exchange p⟩
  · exact (State.queueLaw_iff.mp (h.haltCell src)).2 fun he => by rw [hmode] at he; cases he
  · rw [hplant.slot, h.slot_haltArms]
  · obtain ⟨harm, htrip⟩ := h.halt_left hplant hx
    exact ⟨by rw [harm], htrip⟩
  · obtain ⟨htrips, hstays⟩ := arm_haltCell s src x
    cases hx : s.trippable x with
    | true => exact ⟨(htrips hx).monitor, (htrips hx).evaluation⟩
    | false => rw [hstays hx]; exact ⟨rfl, rfl⟩
  · have hclosing : (s.haltCell src).closing = s.closing := by
      rw [hplant.closing]
      simp [State.haltArms, State.haltedA, State.haltCancelled, State.cancelAll]
    obtain ⟨hheld, hpin, hepoch, hlevel, hparams, hfree, hpending⟩ := s.haltCell_frame src
    generalize s.haltCell src = u at *
    obtain ⟨held, pin, mode, epoch, level, params, tiles, closing, claims, queue, a, b, pa, pb, pc, free, pending⟩ := u
    dsimp only at *
    subst hheld hpin hepoch hlevel hparams hfree hpending hclosing
    rfl

end State.QueueLaw

/-- Every party has at most one PENDING claim, and the queue names it (R80). -/
theorem State.QueueOrder.countP_parties {s : State} (h : s.QueueOrder) :
    (parties.countP fun p => (s.pendingOf p).isSome) = s.queue.length := by
  have hiff (p : Party) : (s.pendingOf p).isSome = true ↔ p ∈ s.queue.map ClaimName.party := by
    rw [List.mem_map]
    constructor
    · intro hp
      obtain ⟨w, hw⟩ := Option.isSome_iff_exists.mp hp
      obtain ⟨hmem, hparty⟩ := State.pendingOf_some hw
      exact ⟨w.name, (State.mem_waiters.mp hmem).1, hparty⟩
    · rintro ⟨n, hn, hp⟩
      by_contra hnone
      exact h.party_ne_of_pendingOf_none (Option.not_isSome_iff_eq_none.mp hnone) hn hp
  have hperm : (parties.filter fun p => (s.pendingOf p).isSome).Perm (s.queue.map ClaimName.party) := by
    refine (List.perm_ext_iff_of_nodup (List.Nodup.filter _ (by decide)) h.nodup).mpr fun p => ?_
    rw [List.mem_filter, ← hiff p]
    simp
  rw [List.countP_eq_length_filter, hperm.length_eq, List.length_map]

theorem haltRequest_of_guarding {s : State} (h : s.QueueLaw) (hmode : s.mode = .guarding) : haltRequest s =
    (s.haltCell .request, ⟨.done, false, .halted s.queue.length ⟨s.trippable .A, s.trippable .B, false⟩⟩) := by
  rw [haltRequest, if_neg (not_not_intro hmode), h.order.countP_parties]

theorem exec_haltLineAssertion_of_guarding {s : State} (hheld : s.held = false) (hmode : s.mode = .guarding) :
    exec .haltLineAssertion s =
      .next ((({ s with haltPinLow := true, haltLevel := true } : State).raise .C (.haltLine .guarding)).haltCell .line) := by
  have hexec : exec .haltLineAssertion s =
    .next (if s.held = true then { s with haltPinLow := true } else ({ s with haltPinLow := true } : State).assertLine) := rfl
  rw [hexec, if_neg (by rw [hheld]; exact Bool.false_ne_true)]
  unfold State.assertLine
  dsimp only
  rw [if_pos hmode, hmode]

/-- Settles O8: `State.QueueLaw.haltedFrom` for the request, and for the line from the state that HALT_LINE leaves. -/
theorem haltStopsTheCell : Obligations.HaltStopsTheCell := by
  unfold Obligations.HaltStopsTheCell
  intro s h hmode
  refine ⟨fun tag htaken => ⟨s.haltCell .request, h.haltedFrom .request, ?_⟩, fun hheld => ?_⟩
  · rw [exec_halt tag htaken, haltRequest_of_guarding h hmode]
  · set t := ({ s with haltPinLow := true, haltLevel := true } : State).raise .C (.haltLine .guarding) with ht
    have hline : t.QueueLaw :=
      .raise (h.of_slots (t := { s with haltPinLow := true, haltLevel := true }) rfl rfl fun _ _ => rfl) .C _
    have hhalted := hline.haltedFrom .line
    refine ⟨t.haltCell .line, exec_haltLineAssertion_of_guarding hheld hmode, by simp [ht], by simp [ht], ?_,
      hline.haltedFrom .line⟩
    refine (hline.raises_haltCell .line).mem_of_mem (State.mem_attention_raise ..) fun m hm => ?_
    obtain rfl | ⟨k, -, rfl⟩ | ⟨x, -, ⟨-, rfl⟩ | ⟨-, rfl | ⟨z, -, rfl⟩⟩⟩ := hm <;> simp [Notice.code]

end Sys2Proof.Machine
end
